-- ==== Sys2Proof/Word.lean ====
section
/-! DEFINITION. The word types of the OS-4216: bytes of frames, commands and answers; the 16-bit frame check; a
station number. A GSN, a frontier (0 to 2^48), an instant and a length of time (both in units of 0.1 microseconds,
notes/assumptions/1.md) are plain natural numbers: counts that never wrap (00_scope.md 0.4). -/

namespace Sys2Proof

/-- One byte on the record bus or on the local port (R27, R168). -/
abbrev Byte := BitVec 8

/-- A frame check (R182). -/
abbrev Check := BitVec 16

/-- A station number, 0 to 15 (00_scope.md 0.1, R181). -/
abbrev Station := Fin 16

end Sys2Proof
end

