-- ==== Sys2Proof/Config.lean ====
section
/-! DEFINITION. Constants of the part, and the free values: what the data book leaves open, constants with no body. -/

namespace Sys2Proof.Config

/-- Slots of the journal and cells of the record array (R1). -/
abbrev slotCount : Nat := 4096

/-- Bytes of one cell of the record array (00_scope.md 0.2). -/
abbrev cellBytes : Nat := 256

/-- Entries of the pending window (R60). -/
abbrev pendingMax : Nat := 4

/-- Entries of the outbound queue (R81). -/
abbrev outboundMax : Nat := 8

/-- Notices the notice queue holds (R179). -/
abbrev noticeMax : Nat := 32

/-- 2^48: one above the largest GSN, and the largest frontier (R4, R9). -/
abbrev gsnLimit : Nat := 281474976710656

/-- The largest payload in bytes (R46). -/
abbrev payloadMax : Nat := 240

/-- FREE VALUE (notes/assumptions/11.md): the bytes without meaning that the port shifts out (R170, R185), by a
running count of such bytes. -/
opaque meaninglessByte : Nat → Byte

/-- FREE VALUE (notes/assumptions/10.md): whether a byte of an abandoned write had reached its cell (R139), by a running
count and the byte's place in the payload. -/
opaque abandonedByteWritten : Nat → Nat → Bool

end Sys2Proof.Config
end

