-- ==== Sys2Proof/Syntax.lean ====
section
/-! DEFINITION. The commands: one constructor per row of spec/opcode_table.json, in the table's order. The rows give no
operands; the operands here are what the rules say arrives with the event (INVENTORY.md, Instructions). -/

namespace Sys2Proof

/-- The levels at the pins SID3 to SID0, high as true (R181). -/
structure StationPins where
  sid3 : Bool
  sid2 : Bool
  sid1 : Bool
  sid0 : Bool
  deriving DecidableEq, Repr

/-- The levels at the pins RATE1 and RATE0 (R181). -/
structure RatePins where
  rate1 : Bool
  rate0 : Bool
  deriving DecidableEq, Repr

/-- The levels at the pins SLICE1 and SLICE0 (R181). -/
structure SlicePins where
  slice1 : Bool
  slice0 : Bool
  deriving DecidableEq, Repr

/-- The levels sampled at the start bit and at the stop bit of a byte on the data line, recessive as true (R27). -/
structure FramingLevels where
  start : Bool
  stop : Bool
  deriving DecidableEq, Repr

/-- The commands and events of one station, each whole and indivisible (95_what_each_step_holds.md). -/
inductive Instr where
  /-- RESET_N asserted, or power-on (R1). -/
  | hardwareReset
  /-- RESET_N released, with the levels at the strap pins, which are sampled (R181). -/
  | resetRelease (station : StationPins) (rate : RatePins) (slice : SlicePins)
  /-- START with its seven parameter bytes as received (R172, R184). -/
  | start (group heartbeat retryLimit commitMode : Byte) (historyDepth : BitVec 16) (holdAbort : Byte)
  /-- JOIN (R173). -/
  | join
  /-- SUBMIT with its payload of 0 to 255 bytes (R83, R184). -/
  | submit (payload : List Byte)
  /-- READ of a GSN, a field of six bytes (R174). -/
  | read (gsn : BitVec 48)
  /-- STATUS (R176). -/
  | status
  /-- PEERS (R177). -/
  | peers
  /-- NOTICE (R180). -/
  | notice
  /-- LEAVE (R173). -/
  | leave
  /-- HOLD (R158). -/
  | hold
  /-- RELEASE (R163). -/
  | release
  /-- A malformed command transaction: its opening byte and the parameter bytes received (R169). -/
  | malformedCommand (opening : Byte) (params : List Byte)
  /-- A collect transaction that clocks out `bytes` bytes after its opening byte (R170). -/
  | collect (bytes : Nat)
  /-- A deferred LEAVE or HOLD is taken (R116, R171). -/
  | deferredCommandTaken
  /-- The data line has been recessive for 40 bt in SYNC_WAIT (R29). -/
  | syncWaitEnd
  /-- A recessive-to-dominant change made by another station (R30). -/
  | frameStart
  /-- This station drives its frame-start bit on a recessive line (R30, R97). -/
  | ownFrameStart
  /-- This contender reads dominant where it sent recessive (R31). -/
  | arbitrationLost
  /-- The winner reads a bit other than as sent (R32). -/
  | readbackFailure
  /-- A received arbitration byte carries this station's number (R41). -/
  | duplicateStation
  /-- The frame ends where its length byte says: the data bits sampled of each byte, as a byte, and the levels at its start and
  stop bits (R27, R35). -/
  | frameEnd (bytes : List Byte) (framing : List FramingLevels)
  /-- The frame is truncated: the same of the bytes completed before the recessive run (R34). -/
  | frameTruncated (bytes : List Byte) (framing : List FramingLevels)
  /-- The objection window opens (R36). -/
  | windowOpen
  /-- This station's pull reaches its width (R36). -/
  | objectionPullEnd
  /-- The window ends; `lowRun` is the run, in bt from the opening, for which other stations held the line low (R37,
  R38); a run above 32 bt lasts past the window's end. -/
  | windowEnd (lowRun : Nat)
  /-- The separation ends (R38). -/
  | separationEnd
  /-- The data line has been dominant for more than 64 bt (R39). -/
  | dataLineFault
  /-- The data line has been recessive for 64 bt in FAULT_WAIT (R39). -/
  | faultWaitEnd
  /-- The objection line is low where no window allows it (R40). -/
  | objectionLineFault
  /-- The objection line goes high (R40). -/
  | objectionLineRecovery
  /-- The listen timer expires (R101). -/
  | listenTimerExpiry
  /-- The join-wait timer expires (R105). -/
  | joinWaitExpiry
  /-- The leave timer expires (R117). -/
  | leaveTimerExpiry
  /-- The heartbeat tick (R112). -/
  | heartbeatTick
  /-- A peer's missed count has reached 3 (R112). -/
  | peerSilent (station : Station)
  /-- The presence timer expires (R107). -/
  | presenceTimerExpiry
  /-- A peer's quiet mark expires (R113). -/
  | quietMarkExpiry (station : Station)
  /-- The head's STALE_WAIT reaches its wait end (R90). -/
  | staleWaitEnd
  /-- The head's BACKOFF reaches its wait end (R91). -/
  | backoffEnd
  /-- The requester's deadline passes (R130). -/
  | catchUpDeadline
  /-- The responder's backoff ends (R137). -/
  | responderBackoffEnd
  /-- The pending window is empty and no write is in progress while the drain mark stands (R77). -/
  | drainComplete
  /-- The array port grants the commit writer (R71). -/
  | commitWriteGrant
  /-- A late write completes (R72). -/
  | commitWriteComplete
  /-- A write granted as an early write completes (R73). -/
  | earlyWriteComplete
  /-- The array port grants the responder's read (R136). -/
  | replayReadGrant
  /-- The responder's read completes (R136). -/
  | replayReadComplete
  /-- The array port grants the local READ (R174). -/
  | localReadGrant
  /-- The local READ completes (R174). -/
  | localReadComplete
  /-- The array port grants a forced, urgent or ordinary slice (R147). -/
  | sweepSliceGrant
  /-- A slice completes (R147). -/
  | sweepSliceComplete
  /-- The sweep interval timer expires (R145). -/
  | intervalTimerExpiry
  /-- The idle run reaches 200 bt (R149). -/
  | pullIn
  /-- The port quiet time reaches 200 microseconds (R154). -/
  | portQuietPullIn
  /-- The 1 ms evaluation; the operand is the die temperature in degrees Celsius, rounded down (R155, R156). -/
  | temperatureEvaluation (celsius : Int)
  /-- The hold timer expires (R162). -/
  | holdTimerExpiry
  /-- The array port grants an internal hold pass (R162). -/
  | internalPassGrant
  /-- An internal hold pass completes (R162). -/
  | internalPassComplete
  /-- The array port grants the exit pass (R164). -/
  | exitPassGrant
  /-- The exit pass completes (R165). -/
  | exitPassComplete
  deriving DecidableEq, Repr

end Sys2Proof
end

