-- ==== Sys2Proof/Decode.lean ====
section
/-! DEFINITION. Decoding. No row of spec/opcode_table.json gives bits, so no table word spells a command; what does have a
layout is a command transaction of the local port (R169, R184) and a frame on the data line (R27), and they are read here. -/

namespace Sys2Proof

/-- The command that an `nbits`-wide table word spells: none, for no row of spec/opcode_table.json gives bits. -/
def decodeTableWord (_nbits _w : Nat) : Option Instr := none

/-- Bytes as one unsigned number, most significant byte first (11_formats.md, R183). -/
def beNat (bytes : List Byte) : Nat := bytes.foldl (fun acc b => acc * 256 + b.toNat) 0

/-- The opening byte of a collect transaction (11_formats.md 11.3). -/
def collectCode : Byte := 0xF0

/-- R184: the command that a command transaction carries, by its opening byte and its parameter bytes; none when the
transaction is malformed. -/
def decodeTransaction (opening : Byte) (params : List Byte) : Option Instr :=
  match opening.toNat, params with
  | 1, [g, h, r, m, d1, d0, a] => some (.start g h r m (d1 ++ d0) a)
  | 2, [] => some .join
  | 3, n :: payload => if payload.length = n.toNat then some (.submit payload) else none
  | 4, [b5, b4, b3, b2, b1, b0] => some (.read (b5 ++ b4 ++ b3 ++ b2 ++ b1 ++ b0))
  | 5, [] => some .status
  | 6, [] => some .peers
  | 7, [] => some .notice
  | 8, [] => some .leave
  | 9, [] => some .hold
  | 10, [] => some .release
  | _, _ => none

/-- The command transaction a command is sent as: its opening byte and parameter bytes (11_formats.md 11.3); none for
what is no command of the local port. -/
def encodeTransaction : Instr → Option (Byte × List Byte)
  | .start g h r m d a => some (1, [g, h, r, m, d.extractLsb' 8 8, d.extractLsb' 0 8, a])
  | .join => some (2, [])
  | .submit payload => some (3, BitVec.ofNat 8 payload.length :: payload)
  | .read g => some (4, [g.extractLsb' 40 8, g.extractLsb' 32 8, g.extractLsb' 24 8, g.extractLsb' 16 8,
      g.extractLsb' 8 8, g.extractLsb' 0 8])
  | .status => some (5, [])
  | .peers => some (6, [])
  | .notice => some (7, [])
  | .leave => some (8, [])
  | .hold => some (9, [])
  | .release => some (10, [])
  | .malformedCommand o ps => some (o, ps)
  | .hardwareReset | .resetRelease .. | .collect _ | .deferredCommandTaken | .syncWaitEnd | .frameStart
  | .ownFrameStart | .arbitrationLost | .readbackFailure | .duplicateStation | .frameEnd .. | .frameTruncated ..
  | .windowOpen | .objectionPullEnd | .windowEnd _ | .separationEnd | .dataLineFault | .faultWaitEnd
  | .objectionLineFault | .objectionLineRecovery | .listenTimerExpiry | .joinWaitExpiry | .leaveTimerExpiry
  | .heartbeatTick | .peerSilent _ | .presenceTimerExpiry | .quietMarkExpiry _ | .staleWaitEnd | .backoffEnd
  | .catchUpDeadline | .responderBackoffEnd | .drainComplete | .commitWriteGrant | .commitWriteComplete
  | .earlyWriteComplete | .replayReadGrant | .replayReadComplete | .localReadGrant | .localReadComplete
  | .sweepSliceGrant | .sweepSliceComplete | .intervalTimerExpiry | .pullIn | .portQuietPullIn
  | .temperatureEvaluation _ | .holdTimerExpiry | .internalPassGrant | .internalPassComplete | .exitPassGrant
  | .exitPassComplete => none

/-! ## Transactions as bits (R168 to R170) -/

/-- The whole bytes of the bits received on SDI, most significant bit first; bits after the last whole byte are discarded
(R168, R169). -/
def wholeBytes : List Bool → List Byte
  | b7 :: b6 :: b5 :: b4 :: b3 :: b2 :: b1 :: b0 :: rest => BitVec.ofBoolListBE [b7, b6, b5, b4, b3, b2, b1, b0] :: wholeBytes rest
  | _ => []

/-- The bits of bytes, most significant bit first. -/
def bitsOf (bytes : List Byte) : List Bool := bytes.flatMap fun b => (List.range 8).map b.getMsbD

/-- What the bits between a falling and a rising edge of SEL_N stand for: a collect transaction, which clocks out a byte for
each whole byte after its opening byte (R170), or a command transaction (R169). A transaction that ends before a whole
opening byte, or whose falling edge is already present at the release of hardware reset, is no transaction (R168,
notes/assumptions/30.md). -/
def portTransaction (selectedAtRelease : Bool) (bits : List Bool) : Option Instr :=
  if selectedAtRelease then none
  else match wholeBytes bits with
    | [] => none
    | opening :: params =>
      if opening = collectCode then some (.collect params.length)
      else some ((decodeTransaction opening params).getD (.malformedCommand opening params))

/-! ## Frames as levels of the data line (R27, R33, R34) -/

/-- The framing of a byte as sent: a dominant start bit, a recessive stop bit (R27). -/
def soundFraming : FramingLevels := { start := false, stop := true }

/-- R27: the ten levels of a byte, recessive as true: its start bit, its data bits with the most significant first, its stop
bit. -/
def byteLevels (b : Byte) (f : FramingLevels) : List Bool := f.start :: (bitsOf [b] ++ [f.stop])

/-- R27: the levels of a frame's bytes behind its frame-start bit; a byte for which no framing is given has it as sent. -/
def lineLevels : List Byte → List FramingLevels → List Bool
  | [], _ => []
  | b :: rest, framing => byteLevels b (framing.headD soundFraming) ++ lineLevels rest framing.tail

/-- R27: a start bit that reads recessive or a stop bit that reads dominant is a framing error. -/
def FramingLevels.isError (f : FramingLevels) : Bool := f.start || !f.stop

/-- R27: the places, from `n` on, of the bytes with a framing error. -/
def framingErrorsFrom (n : Nat) : List FramingLevels → List Nat
  | [] => []
  | f :: rest => if f.isError then n :: framingErrorsFrom (n + 1) rest else framingErrorsFrom (n + 1) rest

/-- R27: the places of the bytes with a framing error, the arbitration byte at 0. -/
def framingErrors (framing : List FramingLevels) : List Nat := framingErrorsFrom 0 framing

/-- What a receiver has of a frame: the bytes completed, the levels at their start and stop bits, the levels of the byte being
received, the bit times for which the line has been recessive, and how many bytes were complete before that. -/
structure Reception where
  bytes : List Byte
  framing : List FramingLevels
  part : List Bool
  run : Nat
  before : Nat
  deriving DecidableEq, Repr

/-- R27: one more level of the byte being received; the tenth completes it, whatever its start and stop bits read. -/
def Reception.take (r : Reception) (level : Bool) : Reception :=
  match r.part with
  | [start, b7, b6, b5, b4, b3, b2, b1, b0] =>
    { r with bytes := r.bytes ++ [BitVec.ofBoolListBE [b7, b6, b5, b4, b3, b2, b1, b0]]
             framing := r.framing ++ [{ start := start, stop := level }], part := [] }
  | part => { r with part := part ++ [level] }

/-- One more bit time is sampled; a dominant one ends the recessive run (R34). -/
def Reception.sample (r : Reception) (level : Bool) : Reception :=
  let r := r.take level
  if level then { r with run := r.run + 1 } else { r with run := 0, before := r.bytes.length }

/-- R33: as many bytes as the length byte sets. -/
def isWhole (bytes : List Byte) : Bool :=
  match bytes[2]? with
  | some l => bytes.length == 5 + l.toNat
  | none => false

/-- R33, R34: the frame end that has been reached, as its command; a truncation hands over the bytes completed before its run.
An end set by the length byte goes before a truncation at the same instant (notes/assumptions/40.md). -/
def Reception.ended (r : Reception) : Option Instr :=
  if r.part.isEmpty && isWhole r.bytes then some (.frameEnd r.bytes r.framing)
  else if 12 ≤ r.run then some (.frameTruncated (r.bytes.take r.before) (r.framing.take r.before))
  else none

/-- The reception goes on through sampled levels to the first frame end. -/
def Reception.follow (r : Reception) : List Bool → Option Instr
  | [] => none
  | level :: rest =>
    let r := r.sample level
    match r.ended with
    | some c => some c
    | none => r.follow rest

/-- R27, R33, R34: the command that the levels sampled behind a frame-start bit stand for; none while the frame goes on. -/
def frameFromLevels (levels : List Bool) : Option Instr :=
  Reception.follow { bytes := [], framing := [], part := [], run := 0, before := 0 } levels

/-- R34: the shortest levels behind a frame's bytes with which it is truncated and hands over just these bytes: a recessive
stop bit would belong to the run, so a dominant bit follows it; then the line is recessive for 12 bt. -/
def brokenOff (framing : List FramingLevels) : List Bool :=
  (match framing.getLast? with
   | some f => if f.stop then [false] else []
   | none => []) ++ List.replicate 12 true

end Sys2Proof
end

