-- ==== Sys2Proof/Machine/State.lean ====
section
/-! DEFINITION. The state of one station as plain data, block by block as 00_scope.md 0.2 lists them, the reasons a step
can stop, the state at hardware reset, and one update per block. -/

namespace Sys2Proof.Machine

/-! ## Names -/

/-- The station states (R99). -/
inductive StationState where
  | unset | listening | founding | joining | syncing | member | leaving | detached | held | resuming | fault
  deriving DecidableEq, Repr

/-- Why a station leaves (R47, R99). -/
inductive LeaveReason where
  | stop | hold | faultExit
  deriving DecidableEq, Repr

/-- The status of a peer entry (R110). -/
inductive PeerStatus where
  | absent | active | silent | held | left
  deriving DecidableEq, Repr

/-- The temperature classes, coolest first (R155). -/
inductive TempClass where
  | cool | normal | hot | critical
  deriving DecidableEq, Repr

/-- Why an outbound entry is dropped (R93). -/
inductive DropReason where
  | retryLimit | staleLimit | busyLimit | numbersSpent | departed
  deriving DecidableEq, Repr

/-- The two lines of the record bus (R25). -/
inductive Line where
  | data | objection
  deriving DecidableEq, Repr

/-- The classes of objection a station may raise, by rising width (R36). -/
inductive ObjClass where
  | content | stale | full
  deriving DecidableEq, Repr

/-- The observed class of a window (R37). -/
inductive Observed where
  | none | content | stale | full | overrun
  deriving DecidableEq, Repr

/-- When a confirmed record is written (R172, section 1.7). -/
inductive CommitMode where
  | late | early
  deriving DecidableEq, Repr

/-! ## Straps and START parameters -/

/-- The straps as sampled at reset release (R181). -/
structure Straps where
  station : Station
  rate : Fin 4
  slice : Fin 4
  deriving DecidableEq, Repr

/-- The six START parameters (R172). -/
structure StartParams where
  group : Byte
  heartbeat : Fin 4
  retryLimit : Nat
  commitMode : CommitMode
  historyDepth : Nat
  holdAbort : Bool
  deriving DecidableEq, Repr

/-! ## Journal directory (01_the_journal.md) -/

/-- The fields a descriptor holds in FILLING, TENTATIVE and COMMITTED (R2). -/
structure RecordInfo where
  origin : Station
  tag : Nat
  length : Nat
  check : Check
  deriving DecidableEq, Repr

/-- A slot descriptor that is not VACANT, with the fields present in its state (R2). -/
inductive Slot where
  | gap (gsn : Nat)
  | filling (gsn : Nat) (info : RecordInfo)
  | tentative (gsn : Nat) (info : RecordInfo)
  | committed (gsn : Nat) (info : RecordInfo)
  | lost (gsn : Nat)
  deriving DecidableEq, Repr

/-- A window that is not empty (R1). -/
structure Window where
  low : Nat
  high : Nat
  deriving DecidableEq, Repr

/-- The journal directory (R1). A slot number that `slots` does not list is VACANT; the list rises in slot number. -/
structure Directory where
  slots : List (Nat × Slot)
  window : Option Window
  frontier : Nat
  gapCount : Nat
  lostCount : Nat
  deriving DecidableEq, Repr

/-! ## Frames (03_frame_kinds_and_receive_filtering.md) -/

/-- The fields of a frame, by kind (R46 to R49). -/
inductive FrameBody where
  | quiet (duration : Nat)
  | found (frontier : Nat)
  | leave (reason : LeaveReason)
  | fetch (responder : Station) (first : Nat) (count : Nat)
  | gone (requester : Station) (first : Nat) (count : Nat)
  | replay (requester : Station) (gsn : Nat) (origin : Station) (tag : Nat) (payload : List Byte)
  | record (gsn : Nat) (tag : Nat) (payload : List Byte)
  | join (retainedHigh : Nat)
  | presence (frontier : Nat) (low : Nat) (check : Check) (isMember : Bool)
  deriving DecidableEq, Repr

/-- Who may object to a frame (R52). -/
inductive Scope where
  | general | addressedHere | addressedElsewhere
  deriving DecidableEq, Repr

/-- What the filter finds of a frame at its end (R50, R51). -/
inductive Classified where
  | foreign
  | failure (scope : Scope)
  | sound (sender : Station) (body : FrameBody) (check : Check) (scope : Scope)
  deriving DecidableEq, Repr

/-- The receive record (R44, R35): bytes, the places of those with a framing error, and the marks. -/
structure ReceiveRecord where
  bytes : List Byte
  framing : List Nat
  truncated : Bool
  own : Bool
  readback : Bool
  deriving DecidableEq, Repr

/-- The receive filter (R44). -/
structure Filter where
  receive : Option ReceiveRecord
  window : Option Classified
  deriving DecidableEq, Repr

/-! ## Bus interface (02_the_record_bus.md) -/

/-- The receive state (R28). -/
inductive RxState where
  | off | syncWait | idle | frame | preWindow | window | separation | faultWait | stopped
  deriving DecidableEq, Repr

/-- A window of a frame that has ended: not yet open, or open. `own` and `readback` are the marks of its frame,
`pulled` the width in bt that this station pulls in it, `due` the instant of its opening or its end (R36, R37, R59). -/
structure WindowRun where
  opened : Bool
  overlapping : Bool
  own : Bool
  readback : Bool
  pulled : Nat
  due : Nat
  deriving DecidableEq, Repr

/-- The objection driver while it pulls (R36). -/
structure Pull where
  cls : ObjClass
  ends : Nat
  deriving DecidableEq, Repr

/-- The bus interface (R28). -/
structure Bus where
  rx : RxState
  frameStart : Nat
  windows : List WindowRun
  pull : Option Pull
  dataFault : Bool
  objFault : Bool
  inhibit : Bool
  objWatch : Bool
  recessiveSince : Nat
  sepEnd : Nat
  offTarget : Option RxState
  deriving DecidableEq, Repr

/-! ## Confirmation unit (04_confirmation.md) -/

/-- The status of a pending entry; the early tried mark is present while the entry awaits its window (R66). -/
inductive PendStatus where
  | awaitingWindow (earlyTried : Bool)
  | writtenEarly
  | confirmed
  deriving DecidableEq, Repr

/-- A pending entry (R66). `live` is the source LIVE, else REPLAY. The length field is the payload's length. -/
structure PendEntry where
  gsn : Nat
  live : Bool
  origin : Station
  tag : Nat
  payload : List Byte
  check : Check
  status : PendStatus
  own : Bool
  deriving DecidableEq, Repr

/-- The decision for the frame in the window record (R60). -/
inductive Decision where
  | noObjection
  | object (cls : ObjClass)
  | addressedElsewhere
  deriving DecidableEq, Repr

/-- The decision record (R60). -/
structure DecisionRecord where
  decision : Decision
  hasEntry : Bool
  deriving DecidableEq, Repr

/-- The current write (R60): its GSN and payload, whether it was granted as an early write, whether it still counts as
one, and whether its entry is still in the pending window (R69, R73). -/
structure CurrentWrite where
  gsn : Nat
  payload : List Byte
  grantedEarly : Bool
  early : Bool
  entryPresent : Bool
  deriving DecidableEq, Repr

/-- The confirmation unit (R60); entries oldest first. -/
structure Confirmation where
  entries : List PendEntry
  budget : Nat
  decision : Option DecisionRecord
  write : Option CurrentWrite
  drain : Bool
  deriving DecidableEq, Repr

/-! ## Outbound queue and transmit selector (05_the_outbound_queue.md) -/

/-- The state of an outbound entry, with its stamp or its wait end (R82). -/
inductive OutState where
  | waiting
  | contending
  | inFlight (stamp : Nat)
  | staleWait (ends : Nat)
  | backoff (ends : Nat)
  deriving DecidableEq, Repr

/-- An outbound entry (R82). The length field is the payload's length. -/
structure OutEntry where
  tag : Nat
  payload : List Byte
  contentRetries : Nat
  busyRetries : Nat
  staleCount : Nat
  state : OutState
  deriving DecidableEq, Repr

/-- The outbound queue (R81), head first. `departing`: the departure's drop waits for the head's window
(notes/assumptions/17.md). -/
structure Outbound where
  entries : List OutEntry
  tagCounter : Nat
  departing : Bool
  deriving DecidableEq, Repr

/-- The five senders (R95). -/
inductive Sender where
  | sweep | membership | requester | responder | outbound
  deriving DecidableEq, Repr

/-- The frame in flight (R95). `discard`: its result is wanted by no block any more (R119, R133, R138). -/
structure InFlight where
  sender : Sender
  body : FrameBody
  discard : Bool
  deriving DecidableEq, Repr

/-- The transmit selector (R95). A RECORD offer has no body of its own: it is the head's, stamped at its start (R86).
`presenceKept`: an offered PRESENCE that lost arbitration stands as it was (R98) until one of these values changes (R107,
notes/assumptions/54.md). -/
structure Selector where
  sweep : Option FrameBody
  membership : Option FrameBody
  requester : Option FrameBody
  responder : Option FrameBody
  record : Bool
  choice : Option Sender
  inFlight : Option InFlight
  presenceKept : Option FrameBody
  deriving DecidableEq, Repr

/-! ## Membership unit (06_group_membership_and_the_peer_table.md) -/

/-- A peer entry (R110). `heardMember`: the heard state is MEMBER, else SYNCING. -/
structure Peer where
  status : PeerStatus
  heardFrontier : Option Nat
  heardLow : Option Nat
  heardMember : Option Bool
  heardRetained : Option Nat
  missed : Nat
  heard : Bool
  quiet : Option Nat
  divergence : Option Nat
  deriving DecidableEq, Repr

/-- An ABSENT entry with every optional field absent (R110). -/
def Peer.reset : Peer :=
  { status := .absent, heardFrontier := none, heardLow := none, heardMember := none, heardRetained := none, missed := 0,
    heard := false, quiet := none, divergence := none }

/-- What the unit holds in LEAVING (R99, R117). `expired`: the leave timer's expiry waits for the LEAVE's window. -/
structure LeaveRecord where
  reason : LeaveReason
  voided : Nat
  timer : Option Nat
  expired : Bool
  deriving DecidableEq, Repr

/-- The membership unit (R99). A running timer holds its end. `departWait`: the windows, counted to the one a deferred LEAVE or
HOLD waits for, that have still to end (R116, notes/assumptions/34.md). -/
structure Membership where
  st : StationState
  leave : Option LeaveRecord
  faultFlag : Bool
  learned : Option Nat
  highBefore : Option Nat
  listenTimer : Option Nat
  listenOwed : Bool
  joinWait : Option Nat
  tick : Option Nat
  presence : Option Nat
  joinOwed : Bool
  departWait : Nat
  peers : Vector Peer 16
  deriving DecidableEq, Repr

/-! ## Catch-up unit (07_catch_up.md) -/

/-- The mark of a station in the tried set (R120). -/
inductive TriedMark where
  | gone | timedOut
  deriving DecidableEq, Repr

/-- The phase of a requester context, with the fields present in it (R120). -/
inductive RequesterPhase where
  | waitingPeer
  | offered (responder : Station)
  | awaiting (responder : Station) (answered : List Nat) (deadline : Option Nat)
  deriving DecidableEq, Repr

/-- The requester context (R120). `timeoutHeld` and `selectOwed` are the timeout and the selection that wait for a
TENTATIVE slot (R130, section 7.3). -/
structure RequesterCtx where
  first : Nat
  count : Nat
  phase : RequesterPhase
  received : List Nat
  attempt : Nat
  tried : List (Station × TriedMark)
  timeoutHeld : Bool
  selectOwed : Bool
  deriving DecidableEq, Repr

/-- The phase of a responder context, with the frame it offers or the read it keeps (R134, R119). -/
inductive ResponderPhase where
  | deciding
  | reading (kept : Option FrameBody)
  | settling
  | offered (frame : FrameBody)
  | backoff (frame : FrameBody) (ends : Nat)
  deriving DecidableEq, Repr

/-- The responder context (R134). -/
structure ResponderCtx where
  requester : Station
  next : Nat
  last : Nat
  retries : Nat
  phase : ResponderPhase
  deriving DecidableEq, Repr

/-- The catch-up unit (R119). -/
structure CatchUp where
  requester : Option RequesterCtx
  responder : Option ResponderCtx
  deriving DecidableEq, Repr

/-! ## Local port: commands, answers, notices (10_the_local_port.md) -/

/-- The commands by name, for the command code of an answer (11_formats.md 11.3). -/
inductive Command where
  | start | join | submit | read | status | peers | notice | leave | hold | release
  deriving DecidableEq, Repr

/-- The notices (R178). -/
inductive Notice where
  | committed (tag : Nat) (gsn : Nat)
  | dropped (tag : Nat) (reason : DropReason)
  | gapOpened (first : Nat) (count : Nat)
  | gapFilled (first : Nat) (count : Nat)
  | lost (first : Nat) (count : Nat)
  | peerChange (station : Station) (status : PeerStatus)
  | divergence (station : Station) (gsn : Nat)
  | state (st : StationState)
  | lineFault (line : Line)
  | duplicateStation
  | historyDiscarded (low high : Nat)
  | temperature (cls : TempClass)
  deriving DecidableEq, Repr

/-- The status record (R176); low and high are 0 when the window is empty. -/
structure StatusRecord where
  st : StationState
  frontier : Nat
  low : Nat
  high : Nat
  gapCount : Nat
  lostCount : Nat
  balance : Int
  position : Nat
  cls : TempClass
  pendingOccupancy : Nat
  outboundOccupancy : Nat
  noticeCount : Nat
  lostNotices : Nat
  deriving DecidableEq, Repr

/-- One entry of the PEERS answer (R177): `quietLeft` is the time left in microseconds. -/
structure PeerReport where
  status : PeerStatus
  heardFrontier : Option Nat
  heardLow : Option Nat
  heardMember : Option Bool
  heardRetained : Option Nat
  missed : Nat
  quietLeft : Option Nat
  divergence : Option Nat
  deriving DecidableEq, Repr

/-- The classes of a lookup that transfer no payload (R22, R174). -/
inductive NoData where
  | expired | notYet | gap | lost | filling
  deriving DecidableEq, Repr

/-- The answers (R171, 11_formats.md 11.4). -/
inductive Answer where
  | okStart (straps : Straps)
  | okTag (tag : Nat)
  | ok (command : Command)
  | refusedState (command : Command)
  | param (code : Byte)
  | paramStart (straps : Straps)
  | full
  | noData (kind : NoData) (gsn : Nat)
  | data (gsn : Nat) (origin : Station) (tag : Nat) (tentative : Bool) (payload : List Byte)
  | status (record : StatusRecord)
  | peers (entries : List PeerReport)
  | notice (lost : Nat) (notice : Notice)
  | empty (lost : Nat)
  deriving DecidableEq, Repr

/-- The port phase (R167). -/
inductive PortPhase where
  | idle | working | ready
  deriving DecidableEq, Repr

/-- A command that stays in the command slot: a deferred LEAVE or HOLD, or a READ waiting for its grant (R171). -/
inductive SlotCommand where
  | leave | hold
  | read (gsn : Nat)
  deriving DecidableEq, Repr

/-- The local port (R167). `sdo`: the bytes shifted out by the last transaction (R168, R170). -/
structure LocalPort where
  phase : PortPhase
  slot : Option SlotCommand
  response : Option Answer
  notices : List Notice
  lost : Nat
  sdo : List Byte
  deriving DecidableEq, Repr

/-! ## Array port, sweep engine, temperature monitor -/

/-- The four requesters of the array port (R139). -/
inductive PortClient where
  | writer | responder | localPort | sweep
  deriving DecidableEq, Repr

/-- A waiting request: its rank, when it arrived, and whether it arrived at a free port (R139, R141). -/
structure Request where
  rank : Nat
  since : Nat
  atFree : Bool
  deriving DecidableEq, Repr

/-- A granted operation (R139, R140). A read holds what it read; `wanted` is clear once its requester no longer wants
the result (R142). -/
inductive PortOp where
  | commitWrite
  | replayRead (frame : FrameBody) (wanted : Bool)
  | localRead (answer : Answer)
  | slice
  | exitPass
  | internalPass
  deriving DecidableEq, Repr

/-- The grant (R139); `ends` is the end of a slice or a pass. -/
structure Grant where
  op : PortOp
  rank : Nat
  ends : Option Nat
  deriving DecidableEq, Repr

/-- The array port arbiter (R139): the grant, and the waiting request of each requester. -/
structure Arbiter where
  grant : Option Grant
  writer : Option Request
  responder : Option Request
  localPort : Option Request
  sweep : Option Request
  deriving DecidableEq, Repr

/-- The cool mark (R144). -/
inductive CoolMark where
  | count | skip
  deriving DecidableEq, Repr

/-- The pass state of HELD (R161). -/
inductive PassState where
  | none | waiting | running
  deriving DecidableEq, Repr

/-- The sweep engine (R144, R161). Its request lies in the arbiter, its QUIET offer in the selector. -/
structure Sweep where
  balance : Int
  position : Nat
  intervalEnd : Option Nat
  cool : CoolMark
  licence : Bool
  idleSince : Option Nat
  quietSince : Option Nat
  holdTimer : Option Nat
  passState : Option PassState
  deriving DecidableEq, Repr

/-- The temperature monitor (R155). -/
structure Temperature where
  cls : TempClass
  evaluated : Bool
  nextEval : Option Nat
  deriving DecidableEq, Repr

/-! ## The station -/

/-- The whole state of one station. `pending` is the queue of commands, `now` the instant, `freeCount` the index of the
next free value, `resetHeld` the level of RESET_N (notes/assumptions/1.md, 7.md, 12.md); the rest is the spec's. -/
structure State where
  pending : List Instr
  now : Nat
  freeCount : Nat
  resetHeld : Bool
  straps : Straps
  params : Option StartParams
  dir : Directory
  array : List Host.Cell
  bus : Bus
  filter : Filter
  conf : Confirmation
  out : Outbound
  sel : Selector
  mem : Membership
  cat : CatchUp
  arb : Arbiter
  swp : Sweep
  temp : Temperature
  port : LocalPort
  deriving DecidableEq, Repr

/-- The reasons the machine could stop with a fault: none. The spec gives every event an effect or no effect at all,
never a stop of the part; safe, since nothing is left out by it. -/
inductive Fault where
  deriving DecidableEq, Repr

/-- The reasons a step could be refused. -/
inductive Refusal where
  /-- Raised by no arm of `exec`: kept for a command without a meaning, of which there is none. Safe. -/
  | notModelled (mnemonic : String)
  deriving DecidableEq, Repr

/-! ## Reset -/

/-- The directory at hardware reset (R1). -/
def Directory.reset : Directory :=
  { slots := [], window := none, frontier := 0, gapCount := 0, lostCount := 0 }

/-- The bus interface at hardware reset (R28). The instants and the watch mark are the model's (notes/assumptions/8.md). -/
def Bus.reset : Bus :=
  { rx := .off, frameStart := 0, windows := [], pull := none, dataFault := false, objFault := false, inhibit := false,
    objWatch := false, recessiveSince := 0, sepEnd := 0, offTarget := none }

/-- The membership unit at hardware reset (R99). -/
def Membership.reset : Membership :=
  { st := .unset, leave := none, faultFlag := false, learned := none, highBefore := none, listenTimer := none,
    listenOwed := false, joinWait := none, tick := none, presence := none, joinOwed := false, departWait := 0,
    peers := Vector.replicate 16 Peer.reset }

/-- The sweep engine at hardware reset (R144); its interval timer starts at reset release. -/
def Sweep.reset : Sweep :=
  { balance := 0, position := 0, intervalEnd := none, cool := .count, licence := false, idleSince := none,
    quietSince := none, holdTimer := none, passState := none }

/-- The machine right after hardware reset is asserted, RESET_N still low: every block at the value its chapter gives
(R1, R28, R44, R60, R81, R95, R99, R110, R119, R139, R144, R155, R167). The straps, not yet sampled, and the array
bytes are notes/assumptions/8.md and 9.md. -/
def State.reset : State :=
  { pending := [], now := 0, freeCount := 0, resetHeld := true,
    straps := { station := 0, rate := 0, slice := 0 },
    params := none,
    dir := Directory.reset,
    array := [],
    bus := Bus.reset,
    filter := { receive := none, window := none },
    conf := { entries := [], budget := 0, decision := none, write := none, drain := false },
    out := { entries := [], tagCounter := 1, departing := false },
    sel := { sweep := none, membership := none, requester := none, responder := none, record := false, choice := none,
             inFlight := none, presenceKept := none },
    mem := Membership.reset,
    cat := { requester := none, responder := none },
    arb := { grant := none, writer := none, responder := none, localPort := none, sweep := none },
    swp := Sweep.reset,
    temp := { cls := .normal, evaluated := false, nextEval := none },
    port := { phase := .idle, slot := none, response := none, notices := [], lost := 0, sdo := [] } }

/-! ## One update per block -/

/-- The queue of commands. -/
def State.setPending (s : State) (v : List Instr) : State := { s with pending := v }
/-- The instant. -/
def State.setNow (s : State) (v : Nat) : State := { s with now := v }
/-- The index of the next free value. -/
def State.setFreeCount (s : State) (v : Nat) : State := { s with freeCount := v }
/-- The level of RESET_N. -/
def State.setResetHeld (s : State) (v : Bool) : State := { s with resetHeld := v }
/-- The straps. -/
def State.setStraps (s : State) (v : Straps) : State := { s with straps := v }
/-- The START parameters. -/
def State.setParams (s : State) (v : Option StartParams) : State := { s with params := v }
/-- The journal directory. -/
def State.setDir (s : State) (v : Directory) : State := { s with dir := v }
/-- The record array. -/
def State.setArray (s : State) (v : List Host.Cell) : State := { s with array := v }
/-- The bus interface. -/
def State.setBus (s : State) (v : Bus) : State := { s with bus := v }
/-- The receive filter. -/
def State.setFilter (s : State) (v : Filter) : State := { s with filter := v }
/-- The confirmation unit. -/
def State.setConf (s : State) (v : Confirmation) : State := { s with conf := v }
/-- The outbound queue. -/
def State.setOut (s : State) (v : Outbound) : State := { s with out := v }
/-- The transmit selector. -/
def State.setSel (s : State) (v : Selector) : State := { s with sel := v }
/-- The membership unit. -/
def State.setMem (s : State) (v : Membership) : State := { s with mem := v }
/-- The catch-up unit. -/
def State.setCat (s : State) (v : CatchUp) : State := { s with cat := v }
/-- The array port arbiter. -/
def State.setArb (s : State) (v : Arbiter) : State := { s with arb := v }
/-- The sweep engine. -/
def State.setSwp (s : State) (v : Sweep) : State := { s with swp := v }
/-- The temperature monitor. -/
def State.setTemp (s : State) (v : Temperature) : State := { s with temp := v }
/-- The local port. -/
def State.setPort (s : State) (v : LocalPort) : State := { s with port := v }

end Sys2Proof.Machine
end

