-- ==== Sys2Proof/Machine/Operands.lean ====
section
/-! DEFINITION. The byte layouts of 11_formats.md: fields, the frame check, frames sent and received, codes, answers and
notices. -/

namespace Sys2Proof.Machine

/-! ## Fields -/

/-- A number as `w` bytes, most significant first; what does not fit is dropped, so a frontier of 2^48 is sent as 0
(R47, R183). -/
def natBytes : Nat → Nat → List Byte
  | 0, _ => []
  | w + 1, n => BitVec.ofNat 8 (n / 256 ^ w) :: natBytes w n

/-- The unsigned number in the `w` bytes from offset `off` (R183). -/
def field (body : List Byte) (off w : Nat) : Nat := beNat ((body.drop off).take w)

/-- A frontier field: 0 stands for 2^48 (R47, R183). -/
def decodeFrontier (n : Nat) : Nat := if n = 0 then Config.gsnLimit else n

/-- A station field: a whole byte, out of range from 16 up (R183). -/
def station? (b : Nat) : Option Station := if h : b < 16 then some ⟨b, h⟩ else none

/-- A station number as one byte. -/
def stationByte (p : Station) : Byte := BitVec.ofNat 8 p.val

/-! ## The frame check (R182) -/

/-- One covered bit: the top bit of the register and the data bit are combined, the register is shifted left, and the
polynomial 8005h is combined in if the combination was 1. -/
def checkBit (reg : Check) (bit : Bool) : Check :=
  if (reg.msb != bit) then (reg <<< 1) ^^^ 0x8005 else reg <<< 1

/-- One covered byte, most significant bit first. -/
def checkByte (reg : Check) (b : Byte) : Check :=
  [7, 6, 5, 4, 3, 2, 1, 0].foldl (fun r i => checkBit r (b.getLsbD i)) reg

/-- The check of the covered bytes. -/
def frameCheck (bytes : List Byte) : Check := bytes.foldl checkByte 0xFFFF

/-! ## Frames -/

/-- The kind code (R45). -/
def FrameBody.kind : FrameBody → Nat
  | .quiet _ => 1
  | .found _ => 2
  | .leave _ => 3
  | .fetch .. => 4
  | .gone .. => 5
  | .replay .. => 6
  | .record .. => 8
  | .join _ => 9
  | .presence .. => 10

/-- The code of a LEAVE reason (R183). -/
def LeaveReason.code : LeaveReason → Nat
  | .stop => 1
  | .hold => 2
  | .faultExit => 3

/-- The LEAVE reason of a code (R183). -/
def leaveReason? : Nat → Option LeaveReason
  | 1 => some .stop
  | 2 => some .hold
  | 3 => some .faultExit
  | _ => none

/-- The body of a frame by its layout (11_formats.md 11.1). -/
def FrameBody.bytes : FrameBody → List Byte
  | .quiet d => natBytes 2 d
  | .found f => natBytes 6 f
  | .leave r => natBytes 1 r.code
  | .fetch p g n => stationByte p :: (natBytes 6 g ++ natBytes 1 n)
  | .gone p g n => stationByte p :: (natBytes 6 g ++ natBytes 1 n)
  | .replay p g o t payload => stationByte p :: (natBytes 6 g ++ (stationByte o :: (natBytes 2 t ++ payload)))
  | .record g t payload => natBytes 6 g ++ (natBytes 2 t ++ payload)
  | .join h => natBytes 6 h
  | .presence f l c m => natBytes 6 f ++ (natBytes 6 l ++ (natBytes 2 c.toNat ++ natBytes 1 (if m then 5 else 4)))

/-- R54: whether a body length fits a kind. -/
def bodyLengthFits (kind len : Nat) : Bool :=
  match kind with
  | 1 => len = 2
  | 2 => len = 6
  | 3 => len = 1
  | 4 => len = 8
  | 5 => len = 8
  | 6 => 11 ≤ len && len ≤ 250
  | 8 => 9 ≤ len && len ≤ 248
  | 9 => len = 6
  | 10 => len = 15
  | _ => false

/-- The state field of a PRESENCE: 04h SYNCING, 05h MEMBER (R183). -/
def presenceState? : Nat → Option Bool
  | 4 => some false
  | 5 => some true
  | _ => none

/-- The fields of a body by its layout; none where a station field or a coded field has no such value (R183). -/
def bodyFields (kind : Nat) (b : List Byte) : Option FrameBody :=
  match kind with
  | 1 => some (.quiet (field b 0 2))
  | 2 => some (.found (decodeFrontier (field b 0 6)))
  | 3 => (leaveReason? (field b 0 1)).map .leave
  | 4 => (station? (field b 0 1)).map fun p => .fetch p (field b 1 6) (field b 7 1)
  | 5 => (station? (field b 0 1)).map fun p => .gone p (field b 1 6) (field b 7 1)
  | 6 => match station? (field b 0 1), station? (field b 7 1) with
    | some p, some o => some (.replay p (field b 1 6) o (field b 8 2) (b.drop 10))
    | _, _ => none
  | 8 => some (.record (field b 0 6) (field b 6 2) (b.drop 8))
  | 9 => some (.join (field b 0 6))
  | 10 => (presenceState? (field b 14 1)).map fun m =>
      .presence (decodeFrontier (field b 0 6)) (field b 6 6) (BitVec.ofNat 16 (field b 12 2)) m
  | _ => none

/-- A GSN that a record can have: 1 to 2^48 - 1 (R46). -/
def gsnInRange (g : Nat) : Bool := 1 ≤ g && g < Config.gsnLimit

/-- The run of a FETCH or GONE: a count of 1 to 16, its last GSN at most 2^48 - 1 (R48, R54). -/
def runInRange (first count : Nat) : Bool :=
  gsnInRange first && 1 ≤ count && count ≤ 16 && first + count ≤ Config.gsnLimit

/-- A record's tag and payload (R46). -/
def recordInRange (tag : Nat) (payload : List Byte) : Bool :=
  1 ≤ tag && tag ≤ 65535 && 1 ≤ payload.length && payload.length ≤ Config.payloadMax

/-- R46 to R49, R54: whether every field holds a value in its range. -/
def FrameBody.inRange : FrameBody → Bool
  | .quiet d => 1 ≤ d && d ≤ 1000
  | .found f => 1 ≤ f && f ≤ Config.gsnLimit
  | .leave _ => true
  | .fetch _ g n => runInRange g n
  | .gone _ g n => runInRange g n
  | .replay _ g _ t payload => gsnInRange g && recordInRange t payload
  | .record g t payload => gsnInRange g && recordInRange t payload
  | .join h => h < Config.gsnLimit
  | .presence f l _ _ => 1 ≤ f && f ≤ Config.gsnLimit && (l == 0 || (l + 1 ≤ f && f ≤ l + 4096))

/-- The body of a frame of a kind; none when the frame is malformed (R54, R183). -/
def decodeBody (kind : Nat) (body : List Byte) : Option FrameBody :=
  if bodyLengthFits kind body.length then (bodyFields kind body).filter FrameBody.inRange else none

/-- The frame from the arbitration byte through the last body byte (11_formats.md 11.1, R31). -/
def coveredBytes (group : Byte) (sender : Station) (body : FrameBody) : List Byte :=
  BitVec.ofNat 8 (body.kind * 16 + sender.val) :: group :: BitVec.ofNat 8 body.bytes.length :: body.bytes

/-- The whole frame as sent, its check last, high byte first (R182, R183). -/
def frameBytes (group : Byte) (sender : Station) (body : FrameBody) : List Byte :=
  let covered := coveredBytes group sender body
  covered ++ natBytes 2 (frameCheck covered).toNat

/-! ## Classification at frame end (R50 to R54) -/

/-- R50: the frame's group byte was received complete, neither it nor the arbitration byte has a framing error, and it
names another group. -/
def ReceiveRecord.isForeign (f : ReceiveRecord) (group : Option Byte) : Bool :=
  match f.bytes[1]? with
  | some g => !f.framing.contains 0 && !f.framing.contains 1 && group != some g
  | none => false

/-- R51 without the last ground: the frame ended whole, read well, and its check is good. -/
def ReceiveRecord.passesCheck (f : ReceiveRecord) : Bool :=
  !f.truncated && f.framing.isEmpty && !(f.own && f.readback) &&
  (match f.bytes[2]? with
   | some l => f.bytes.length == 5 + l.toNat
   | none => false) &&
  frameCheck (f.bytes.take (f.bytes.length - 2)) == BitVec.ofNat 16 (beNat (f.bytes.drop (f.bytes.length - 2)))

/-- The kind code in the arbitration byte (R45). -/
def ReceiveRecord.kind (f : ReceiveRecord) : Nat := field f.bytes 0 1 / 16

/-- The sender in the arbitration byte (R45). -/
def ReceiveRecord.sender (f : ReceiveRecord) : Station := ⟨field f.bytes 0 1 % 16, Nat.mod_lt _ (by decide)⟩

/-- The body bytes. -/
def ReceiveRecord.body (f : ReceiveRecord) : List Byte := (f.bytes.drop 3).take (f.bytes.length - 5)

/-- The check bytes as received (R182). -/
def ReceiveRecord.check (f : ReceiveRecord) : Check := BitVec.ofNat 16 (beNat (f.bytes.drop (f.bytes.length - 2)))

/-- R52: the objection scope of a frame that passes the check, at station `me`. -/
def ReceiveRecord.scope (f : ReceiveRecord) (me : Station) : Scope :=
  if f.kind = 5 ∨ f.kind = 6 then
    match f.body with
    | [] => .general
    | r :: _ => if r.toNat < 16 then (if r.toNat = me.val then .addressedHere else .addressedElsewhere) else .general
  else .general

/-- R50 to R54: what the filter finds of a frame, at station `me` of group `group`. An own frame with a readback failure whose
group byte reads back complete as another group is foreign by R50 and a content failure by R65: the model's choice is foreign,
with no objection to decide (notes/assumptions/47.md). -/
def ReceiveRecord.classify (f : ReceiveRecord) (group : Option Byte) (me : Station) : Classified :=
  if f.isForeign group then .foreign
  else if !f.passesCheck then .failure .general
  else match decodeBody f.kind f.body with
    | some body => .sound f.sender body f.check (f.scope me)
    | none => .failure (f.scope me)

/-- R34: the bit times from the frame-start bit to the earliest end of a truncated frame with these bytes
(notes/assumptions/40.md). -/
def truncationLength (bytes : List Byte) (framing : List FramingLevels) : Nat :=
  1 + (lineLevels bytes framing ++ brokenOff framing).length

/-- R41: the arbitration byte is complete, without a framing error, and carries this station's number. -/
def ReceiveRecord.carriesNumber (f : ReceiveRecord) (me : Station) : Bool :=
  !f.bytes.isEmpty && !f.framing.contains 0 && f.sender == me

/-! ## Codes of the local port (11_formats.md 11.2, 11.3) -/

/-- Station state codes. -/
def StationState.code : StationState → Nat
  | .unset => 0 | .listening => 1 | .founding => 2 | .joining => 3 | .syncing => 4 | .member => 5 | .leaving => 6
  | .detached => 7 | .held => 8 | .resuming => 9 | .fault => 10

/-- Peer status codes. -/
def PeerStatus.code : PeerStatus → Nat
  | .absent => 0 | .active => 1 | .silent => 2 | .held => 3 | .left => 4

/-- Temperature class codes, which also rank the classes. -/
def TempClass.code : TempClass → Nat
  | .cool => 0 | .normal => 1 | .hot => 2 | .critical => 3

/-- DROPPED reason codes. -/
def DropReason.code : DropReason → Nat
  | .retryLimit => 1 | .staleLimit => 2 | .busyLimit => 3 | .numbersSpent => 4 | .departed => 5

/-- Command codes. -/
def Command.code : Command → Nat
  | .start => 1 | .join => 2 | .submit => 3 | .read => 4 | .status => 5 | .peers => 6 | .notice => 7 | .leave => 8
  | .hold => 9 | .release => 10

/-- Port phase codes, bits 1 and 0 of the port status. -/
def PortPhase.code : PortPhase → Nat
  | .idle => 0 | .working => 1 | .ready => 2

/-! ## Answers and notices as bytes (11_formats.md 11.4) -/

/-- A notice record: its kind code and its fields. -/
def Notice.bytes : Notice → List Byte
  | .committed t g => natBytes 1 1 ++ natBytes 2 t ++ natBytes 6 g
  | .dropped t r => natBytes 1 2 ++ natBytes 2 t ++ natBytes 1 r.code
  | .gapOpened g n => natBytes 1 3 ++ natBytes 6 g ++ natBytes 2 n
  | .gapFilled g n => natBytes 1 4 ++ natBytes 6 g ++ natBytes 2 n
  | .lost g n => natBytes 1 5 ++ natBytes 6 g ++ natBytes 2 n
  | .peerChange p x => natBytes 1 6 ++ [stationByte p] ++ natBytes 1 x.code
  | .divergence p g => natBytes 1 7 ++ [stationByte p] ++ natBytes 6 g
  | .state x => natBytes 1 8 ++ natBytes 1 x.code
  | .lineFault l => natBytes 1 9 ++ natBytes 1 (match l with | .data => 1 | .objection => 2)
  | .duplicateStation => natBytes 1 10
  | .historyDiscarded l h => natBytes 1 11 ++ natBytes 6 l ++ natBytes 6 h
  | .temperature c => natBytes 1 12 ++ natBytes 1 c.code

/-- The three strap bytes of an answer to START. -/
def Straps.bytes (st : Straps) : List Byte := [stationByte st.station, BitVec.ofNat 8 st.rate.val, BitVec.ofNat 8 st.slice.val]

/-- The status record, 31 bytes. -/
def StatusRecord.bytes (r : StatusRecord) : List Byte :=
  natBytes 1 r.st.code ++ natBytes 7 r.frontier ++ natBytes 6 r.low ++ natBytes 6 r.high ++ natBytes 2 r.gapCount ++
  natBytes 2 r.lostCount ++ [BitVec.ofInt 8 r.balance] ++ natBytes 1 r.position ++ natBytes 1 r.cls.code ++
  natBytes 1 r.pendingOccupancy ++ natBytes 1 r.outboundOccupancy ++ natBytes 1 r.noticeCount ++
  natBytes 1 r.lostNotices

/-- One presence mark of a peer entry. -/
def markBit {α : Type} (o : Option α) (weight : Nat) : Nat := if o.isSome then weight else 0

/-- A peer entry, 30 bytes; a field that is absent is sent as zero bytes. -/
def PeerReport.bytes (p : PeerReport) : List Byte :=
  natBytes 1 p.status.code ++
  natBytes 1 (markBit p.heardFrontier 1 + markBit p.heardLow 2 + markBit p.heardMember 4 + markBit p.heardRetained 8 +
    markBit p.quietLeft 16 + markBit p.divergence 32) ++
  natBytes 6 (p.heardFrontier.getD 0) ++ natBytes 6 (p.heardLow.getD 0) ++
  natBytes 1 (match p.heardMember with | some true => 5 | some false => 4 | none => 0) ++
  natBytes 6 (p.heardRetained.getD 0) ++ natBytes 1 p.missed ++ natBytes 2 (p.quietLeft.getD 0) ++
  natBytes 6 (p.divergence.getD 0)

/-- The code of an answer that transfers no payload. -/
def NoData.code : NoData → Nat
  | .expired => 16 | .notYet => 17 | .gap => 18 | .lost => 19 | .filling => 20

/-- The answer kind code, the command code and the body of an answer. -/
def Answer.parts : Answer → Nat × Byte × List Byte
  | .okStart st => (1, 1, st.bytes)
  | .okTag t => (1, 3, natBytes 2 t)
  | .ok c => (1, BitVec.ofNat 8 c.code, [])
  | .refusedState c => (2, BitVec.ofNat 8 c.code, [])
  | .param code => (3, code, [])
  | .paramStart st => (3, 1, st.bytes)
  | .full => (4, 3, [])
  | .noData k g => (k.code, 4, natBytes 6 g)
  | .data g o t tentative payload =>
      (21, 4, natBytes 6 g ++ [stationByte o] ++ natBytes 2 t ++ natBytes 1 (if tentative then 1 else 0) ++
        natBytes 1 payload.length ++ payload)
  | .status r => (32, 5, r.bytes)
  | .peers entries => (33, 6, (entries.map PeerReport.bytes).flatten)
  | .notice n x => (34, 7, natBytes 1 n ++ x.bytes)
  | .empty n => (35, 7, natBytes 1 n)

/-- A whole response: its header of four bytes and its body (R185). -/
def Answer.bytes (a : Answer) : List Byte :=
  let (kind, code, body) := a.parts
  natBytes 1 kind ++ [code] ++ natBytes 2 body.length ++ body

/-- The NONE response (R170, R185). -/
def noneResponse : List Byte := [0, 0, 0, 0]

end Sys2Proof.Machine
end

