-- ==== Sys2Proof/Machine/Flags.lean ====
section
/-! DEFINITION. Views computed from the state: the pins, the port status, the classes of station states, and the lengths
of time that straps and parameters set. -/

namespace Sys2Proof.Machine

/-! ## Times -/

/-- One bit time in units of 0.1 microseconds (R26). The illegal rate code 3 never reaches the bus. -/
def btLength (rate : Fin 4) : Nat :=
  match rate.val with
  | 0 => 10
  | 1 => 5
  | 2 => 2
  | _ => 10

/-- `n` bit times at the strapped rate (R26). -/
def State.bt (s : State) (n : Nat) : Nat := n * btLength s.straps.rate

/-- Microseconds. -/
def us (n : Nat) : Nat := 10 * n

/-- Milliseconds. -/
def ms (n : Nat) : Nat := 10000 * n

/-- The heartbeat period of a heartbeat code: 5, 10, 20 or 50 ms (R172). -/
def heartbeatOf (code : Fin 4) : Nat :=
  match code.val with
  | 0 => ms 5
  | 1 => ms 10
  | 2 => ms 20
  | _ => ms 50

/-- The heartbeat period; START has set it before any timer runs (R99). -/
def State.heartbeat (s : State) : Nat :=
  match s.params with
  | some p => heartbeatOf p.heartbeat
  | none => 0

/-- Slices of a pass by slice code; the illegal code 3 works as 1x (R143). -/
def slicesPerPass (code : Fin 4) : Nat :=
  match code.val with
  | 1 => 2
  | 2 => 4
  | _ => 1

/-- The slice duration in microseconds by slice code (R143). -/
def sliceMicros (code : Fin 4) : Nat :=
  match code.val with
  | 1 => 170
  | 2 => 95
  | _ => 300

/-- The interval length by slice code and temperature class (R145). -/
def intervalLength (code : Fin 4) (cls : TempClass) : Nat :=
  let base := ms 4 / slicesPerPass code
  match cls with
  | .cool => base
  | .normal => base
  | .hot => base / 2
  | .critical => base / 4

/-- The hold spacing: the 1x interval length of the class (R162). -/
def holdSpacing (cls : TempClass) : Nat := intervalLength 0 cls

/-- The length of a pass (R140). -/
def passTime : Nat := us 300

/-! ## Station states -/

/-- SYNCING or MEMBER (00_scope.md: a member). -/
def State.inGroup (s : State) : Bool := s.mem.st == .syncing || s.mem.st == .member

/-- LISTENING, FOUNDING or JOINING (R57). -/
def State.entering (s : State) : Bool := s.mem.st == .listening || s.mem.st == .founding || s.mem.st == .joining

/-- HELD or RESUMING (R144). -/
def State.onHold (s : State) : Bool := s.mem.st == .held || s.mem.st == .resuming

/-- The station states in which the bus interface is on (R28). -/
def State.onBus (s : State) : Bool := s.entering || s.inGroup || s.mem.st == .leaving

/-- The bus interface is switched on (R28). -/
def Bus.on (b : Bus) : Bool := b.rx != .off && b.rx != .stopped

/-- R116, R171: a LEAVE or HOLD that arrives now waits for a window to end; which one, and what ends the wait when the own frame
in flight loses arbitration, is notes/assumptions/34.md. -/
def State.defersDeparture (s : State) : Bool :=
  s.sel.inFlight.isSome || s.bus.rx == .preWindow || s.bus.rx == .window

/-- R116: the windows that have still to end until the one that a LEAVE or HOLD arriving now waits for has: the window of the
own frame in flight, else the newest (notes/assumptions/34.md). -/
def State.windowsAwaited (s : State) : Nat :=
  if s.sel.inFlight.isSome then
    match s.bus.windows.findIdx? fun w => w.own with
    | some i => i + 1
    | none => s.bus.windows.length + 1
  else s.bus.windows.length

/-! ## Pins -/

/-- RDY (R167). -/
def State.rdy (s : State) : Bool := s.port.phase == .ready

/-- ATTN (R167, R179). -/
def State.attn (s : State) : Bool := !s.port.notices.isEmpty

/-- This station is transmitting: it pulls the data line for the dominant bits of its own frame (R25, R32). -/
def State.transmits (s : State) : Bool :=
  s.bus.rx == .frame && (match s.filter.receive with
    | some r => r.own && !r.readback
    | none => false)

/-- This station pulls the objection line (R25, R36). -/
def State.pullsObjection (s : State) : Bool := s.bus.pull.isSome

/-- The QUIET offer's value in R144: offered. -/
def State.quietOffered (s : State) : Bool := s.sel.sweep.isSome

/-- The QUIET offer's value in R144: in flight. -/
def State.quietInFlight (s : State) : Bool :=
  match s.sel.inFlight with
  | some f => f.sender == .sweep
  | none => false

/-- The idle run (R144, R149), in time units. -/
def State.idleRun (s : State) : Nat :=
  match s.swp.idleSince with
  | some t => s.now - t
  | none => 0

/-- The port quiet time (R144, R154). -/
def State.portQuietTime (s : State) : Nat :=
  match s.swp.quietSince with
  | some t => s.now - t
  | none => 0

/-- The port status byte (R168, 11_formats.md 11.3). -/
def State.portStatus (s : State) : Byte :=
  BitVec.ofNat 8 (s.port.phase.code + (if s.attn then 4 else 0) + (if s.port.phase != .idle then 8 else 0))

/-! ## Objection widths and observed classes -/

/-- The pull of a class in bt (R36). -/
def ObjClass.width : ObjClass → Nat
  | .content => 4
  | .stale => 12
  | .full => 24

/-- The observed class of a low run of `n` bt from the opening; a run above 32 bt lasts past the window's end (R37). -/
def observedOf (n : Nat) : Observed :=
  if n = 0 then .none
  else if n ≤ 8 then .content
  else if n ≤ 18 then .stale
  else if n ≤ 32 then .full
  else .overrun

/-- R37: OVERRUN is passed on as FULL. -/
def Observed.isFull : Observed → Bool
  | .full => true
  | .overrun => true
  | .none => false
  | .content => false
  | .stale => false

end Sys2Proof.Machine
end

