-- ==== Sys2Proof/Machine/Ops.lean ====
section
/-! DEFINITION. The shared operations: the clock, sorted maps and the record array, runs of GSNs, notices, answers and
transactions of the local port, requests and grants of the array port. -/

namespace Sys2Proof.Machine

/-! ## A command's place in time -/

/-- A timed event takes place no earlier than its instant (notes/assumptions/1.md). -/
def State.at (s : State) (due : Nat) : State := s.setNow (max s.now due)

/-- One unit of time passes: what a step does on an empty queue (notes/assumptions/1.md). -/
def State.tick (s : State) : State := if s.resetHeld then s else s.setNow (s.now + 1)

/-- A command acts on a part that is out of reset; while RESET_N is low it has no effect (notes/assumptions/7.md). -/
def State.act (s : State) (effect : State → State) : Host.Outcome State Fault Refusal :=
  .next (if s.resetHeld then s else effect s)

/-! ## Sorted maps from numbers -/

/-- The value at a key. -/
def mapGet {α : Type} (k : Nat) : List (Nat × α) → Option α
  | [] => none
  | (k', v) :: rest => if k' = k then some v else mapGet k rest

/-- The map with a value at a key, keys kept rising. -/
def mapInsert {α : Type} (k : Nat) (v : α) : List (Nat × α) → List (Nat × α)
  | [] => [(k, v)]
  | (k', v') :: rest =>
    if k < k' then (k, v) :: (k', v') :: rest
    else if k = k' then (k, v) :: rest
    else (k', v') :: mapInsert k v rest

/-- The map without a key. -/
def mapErase {α : Type} (k : Nat) (m : List (Nat × α)) : List (Nat × α) := m.filter fun e => e.1 != k

/-- The keys rise strictly. -/
def mapSorted {α : Type} : List (Nat × α) → Bool
  | [] => true
  | [_] => true
  | (a, _) :: (b, w) :: rest => a < b && mapSorted ((b, w) :: rest)

/-! ## The record array (R1, R139) -/

/-- What a byte that nothing has written reads as (notes/assumptions/9.md). -/
def unwrittenByte : Byte := 0

/-- The byte at an address of the array. -/
def arrayRead (m : List Host.Cell) (a : Nat) : Byte := (mapGet a m).getD unwrittenByte

/-- The array with a byte written; the canonical form lists no byte that reads as unwritten. -/
def arrayWrite (m : List Host.Cell) (a : Nat) (b : Byte) : List Host.Cell :=
  if b = unwrittenByte then mapErase a m else mapInsert a b m

/-- The canonical form: addresses strictly rising, no entry equal to an unwritten byte. -/
def Memory.wf (m : List Host.Cell) : Bool := mapSorted m && m.all fun e => e.2 != unwrittenByte

/-- The array with bytes written upward from an address. -/
def arrayWriteBytes (m : List Host.Cell) (a : Nat) : List Byte → List Host.Cell
  | [] => m
  | b :: rest => arrayWriteBytes (arrayWrite m a b) (a + 1) rest

/-- `n` bytes upward from an address. -/
def arrayReadBytes (m : List Host.Cell) (a : Nat) : Nat → List Byte
  | 0 => []
  | n + 1 => arrayRead m a :: arrayReadBytes m (a + 1) n

/-- The slot, and the cell, of a GSN (R2). -/
def slotOf (g : Nat) : Nat := g % Config.slotCount

/-- The address of the first byte of a GSN's cell. -/
def cellAddress (g : Nat) : Nat := slotOf g * Config.cellBytes

/-- A payload reaches the cell of a GSN. -/
def State.writeCell (s : State) (g : Nat) (payload : List Byte) : State :=
  s.setArray (arrayWriteBytes s.array (cellAddress g) payload)

/-- The payload of a record in the cell of a GSN (R22). -/
def State.readCell (s : State) (g : Nat) (info : RecordInfo) : List Byte :=
  arrayReadBytes s.array (cellAddress g) info.length

/-- An abandoned write: each byte of the payload may or may not have reached its cell (R139, notes/assumptions/10.md). -/
def arrayAbandon (m : List Host.Cell) (a key i : Nat) : List Byte → List Host.Cell
  | [] => m
  | b :: rest =>
    arrayAbandon (if Config.abandonedByteWritten key i then arrayWrite m (a + i) b else m) a key (i + 1) rest

/-! ## Lists of GSNs -/

/-- The GSNs from `a` to `b` inclusive. -/
def gsnRange (a b : Nat) : List Nat := List.range' a (b + 1 - a)

/-- The contiguous runs of a rising list, each by its first GSN and its count. -/
def runsOf : List Nat → List (Nat × Nat)
  | [] => []
  | g :: rest =>
    match runsOf rest with
    | (f, n) :: more => if f = g + 1 then (g, n + 1) :: more else (g, 1) :: (f, n) :: more
    | [] => [(g, 1)]

/-- The leading run of a rising list. -/
def leadingRun : List Nat → List Nat
  | [] => []
  | [g] => [g]
  | g :: h :: rest => if h = g + 1 then g :: leadingRun (h :: rest) else [g]

/-- A rising set of GSNs with one more. -/
def gsnInsert (g : Nat) : List Nat → List Nat
  | [] => [g]
  | h :: rest => if g < h then g :: h :: rest else if g = h then h :: rest else h :: gsnInsert g rest

/-! ## Notices (R179) -/

/-- A notice is appended, or counted as lost when the queue is full. -/
def LocalPort.post (p : LocalPort) (n : Notice) : LocalPort :=
  if p.notices.length < Config.noticeMax then { p with notices := p.notices ++ [n] }
  else { p with lost := min 255 (p.lost + 1) }

/-- A block posts a notice. -/
def State.post (s : State) (n : Notice) : State := s.setPort (s.port.post n)

/-- Several notices of one event, in order. -/
def State.postAll (s : State) : List Notice → State
  | [] => s
  | n :: rest => (s.post n).postAll rest

/-! ## Answers and transactions (R168 to R171) -/

/-- The answer is placed, the command slot emptied, the phase becomes READY (R171). -/
def State.answer (s : State) (a : Answer) : State :=
  s.setPort { s.port with phase := .ready, slot := none, response := some a }

/-- A command is kept in the slot and the phase becomes WORKING (R169). -/
def State.working (s : State) (c : SlotCommand) : State :=
  s.setPort { s.port with phase := .working, slot := some c, response := none }

/-- `n` bytes without meaning (notes/assumptions/11.md). -/
def State.meaningless (s : State) (n : Nat) : List Byte :=
  (List.range n).map fun i => Config.meaninglessByte (s.freeCount + i)

/-- A transaction shifts out the port status, then bytes the rules give, then `n` bytes without meaning (R168). -/
def State.shiftOut (s : State) (bytes : List Byte) (n : Nat) : State :=
  let out := s.portStatus :: (bytes ++ s.meaningless n)
  (s.setFreeCount (s.freeCount + n)).setPort { s.port with sdo := out }

/-- A command transaction with `n` parameter bytes: refused BUSY unless the phase is IDLE (R169). -/
def State.transaction (s : State) (n : Nat) (effect : State → State) : State :=
  let t := s.shiftOut [] n
  if s.port.phase = .idle then effect t else t

/-! ## The array port (R139 to R142) -/

/-- The waiting request of a requester. -/
def Arbiter.request (a : Arbiter) : PortClient → Option Request
  | .writer => a.writer
  | .responder => a.responder
  | .localPort => a.localPort
  | .sweep => a.sweep

/-- The waiting request of a requester, replaced. -/
def Arbiter.setRequest (a : Arbiter) (who : PortClient) (r : Option Request) : Arbiter :=
  match who with
  | .writer => { a with writer := r }
  | .responder => { a with responder := r }
  | .localPort => { a with localPort := r }
  | .sweep => { a with sweep := r }

/-- The waiting requests. -/
def Arbiter.waiting (a : Arbiter) : List Request :=
  a.writer.toList ++ a.responder.toList ++ a.localPort.toList ++ a.sweep.toList

/-- The port is free and no request waits (R154). -/
def Arbiter.quiet (a : Arbiter) : Bool := a.grant.isNone && a.waiting.isEmpty

/-- The arbiter's state is replaced; the port quiet time stands at 0 while the port is held or requested, and counts from
the instant at which it is next free with none waiting (R154). -/
def State.withArb (s : State) (a : Arbiter) : State :=
  let since := if a.quiet then (match s.swp.quietSince with | some t => some t | none => some s.now) else none
  (s.setArb a).setSwp { s.swp with quietSince := since }

/-- A requester places its request (R139). -/
def State.place (s : State) (who : PortClient) (rank : Nat) : State :=
  s.withArb (s.arb.setRequest who (some { rank := rank, since := s.now, atFree := s.arb.grant.isNone }))

/-- The local port places the request of a READ (R174); a request that waits already has arrived before it, not together with
it (R141, R175, notes/assumptions/15.md). -/
def State.placeRead (s : State) : State :=
  s.withArb (s.arb.setRequest .localPort (some
    { rank := 5, since := s.now, atFree := s.arb.grant.isNone && s.arb.waiting.isEmpty }))

/-- A requester withdraws its waiting request (R142). -/
def State.withdraw (s : State) (who : PortClient) : State :=
  match s.arb.request who with
  | none => s
  | some _ => s.withArb (s.arb.setRequest who none)

/-- R141: all that wait arrived together at the free port, and none is the exit pass, before which no READ is granted (R164,
notes/assumptions/15.md). -/
def State.arrivedTogether (s : State) : Bool := s.arb.waiting.all fun q => q.atFree && q.since == s.now && q.rank != 2

/-- R141: the arbiter may grant the port to a waiting request: the port is free, and the request has the highest rank, or all
that wait arrived together. -/
def State.grantable (s : State) (who : PortClient) : Bool :=
  match s.arb.request who with
  | none => false
  | some r => s.arb.grant.isNone && (s.arb.waiting.all (fun q => r.rank ≤ q.rank) || s.arrivedTogether)

/-- A request that waits through a grant no longer counts as arriving at a free port. -/
def Request.passedOver (r : Request) : Request := { r with atFree := false }

/-- The request of a requester is granted: it leaves the waiting set, and the others have waited through a grant (R141). -/
def Arbiter.granting (a : Arbiter) (who : PortClient) : Arbiter :=
  let a := a.setRequest who none
  { a with writer := a.writer.map Request.passedOver, responder := a.responder.map Request.passedOver,
           localPort := a.localPort.map Request.passedOver, sweep := a.sweep.map Request.passedOver }

/-- The request leaves the waiting set and becomes the grant (R141). -/
def State.takeGrant (s : State) (who : PortClient) (op : PortOp) (ends : Option Nat) : State :=
  let rank := match s.arb.request who with | some r => r.rank | none => 0
  s.withArb { s.arb.granting who with grant := some { op := op, rank := rank, ends := ends } }

/-- A grant that transfers no data gives up the port at once (R142); the port becomes free, and the others are granted by
rank (R141). -/
def State.giveUpGrant (s : State) (who : PortClient) : State := s.withArb (s.arb.granting who)

/-- The granted operation completes, or is abandoned as R163 gives: the port becomes free (R141). -/
def State.freePort (s : State) : State := s.withArb { s.arb with grant := none }

/-- The operation that holds the port. -/
def State.portOp (s : State) : Option PortOp := s.arb.grant.map Grant.op

/-- A slice of the sweep engine holds the port (R146). -/
def State.sliceGranted (s : State) : Bool := s.portOp == some .slice

/-- The end of the operation that holds the port. -/
def State.portEnds (s : State) : Nat :=
  match s.arb.grant with
  | some g => g.ends.getD s.now
  | none => s.now

end Sys2Proof.Machine
end

