-- ==== Sys2Proof/Machine/Journal.lean ====
section
/-! DEFINITION. The journal directory's operations (01_the_journal.md): slots and their counts, lookups, the raising of the
window with retirement, live records, PRESENCE, founding, join learning, marking LOST. -/

namespace Sys2Proof.Machine

/-! ## Slots and counts -/

/-- The GSN a descriptor holds (R2). -/
def Slot.gsn : Slot → Nat
  | .gap g => g
  | .filling g _ => g
  | .tentative g _ => g
  | .committed g _ => g
  | .lost g => g

/-- Whether a descriptor, or VACANT, is in state GAP. -/
def isGapSlot : Option Slot → Bool
  | some (.gap _) => true
  | _ => false

/-- Whether a descriptor, or VACANT, is in state LOST. -/
def isLostSlot : Option Slot → Bool
  | some (.lost _) => true
  | _ => false

/-- The descriptor of a slot; none is VACANT. -/
def Directory.slotAt (d : Directory) (n : Nat) : Option Slot := mapGet n d.slots

/-- The descriptor that holds a GSN (R2). -/
def Directory.held (d : Directory) (g : Nat) : Option Slot :=
  match d.slotAt (slotOf g) with
  | some x => if x.gsn = g then some x else none
  | none => none

/-- One slot changes its state; the gap count and the lost count follow (R5). -/
def Directory.setSlot (d : Directory) (n : Nat) (x : Option Slot) : Directory :=
  let old := d.slotAt n
  { d with
    slots := match x with
      | some v => mapInsert n v d.slots
      | none => mapErase n d.slots
    gapCount := d.gapCount + (isGapSlot x).toNat - (isGapSlot old).toNat
    lostCount := d.lostCount + (isLostSlot x).toNat - (isLostSlot old).toNat }

/-- The slot of a descriptor's GSN takes the descriptor. -/
def Directory.put (d : Directory) (x : Slot) : Directory := d.setSlot (slotOf x.gsn) (some x)

/-- The slot of a GSN becomes VACANT. -/
def Directory.vacate (d : Directory) (g : Nat) : Directory := d.setSlot (slotOf g) none

/-- The slot of a GSN holds it in GAP. -/
def Directory.holdsGap (d : Directory) (g : Nat) : Bool := d.held g == some (.gap g)

/-- The slot of a GSN holds it in TENTATIVE. -/
def Directory.holdsTentative (d : Directory) (g : Nat) : Bool :=
  match d.held g with
  | some (.tentative ..) => true
  | _ => false

/-- The slot of a GSN holds it in FILLING, with these fields. -/
def Directory.fillingInfo (d : Directory) (g : Nat) : Option RecordInfo :=
  match d.held g with
  | some (.filling _ i) => some i
  | _ => none

/-- The GSNs of the window, lowest first. -/
def Directory.windowGsns (d : Directory) : List Nat :=
  match d.window with
  | some w => gsnRange w.low w.high
  | none => []

/-! ## Lookups (R22) -/

/-- The class of a lookup. -/
inductive LookupClass where
  | above | below | gap | lost | filling
  | tentative (info : RecordInfo)
  | committed (info : RecordInfo)
  deriving DecidableEq, Repr

/-- R22: the class of a GSN. By R3 a GSN of the window is in its slot. -/
def Directory.lookup (d : Directory) (g : Nat) : LookupClass :=
  match d.window with
  | none => .above
  | some w =>
    if w.high < g then .above
    else if g < w.low then .below
    else match d.held g with
      | some (.gap _) => .gap
      | some (.lost _) => .lost
      | some (.filling ..) => .filling
      | some (.tentative _ i) => .tentative i
      | some (.committed _ i) => .committed i
      | none => .below

/-- R22: the stored check of a GSN, if its slot holds it in COMMITTED. -/
def Directory.storedCheck (d : Directory) (g : Nat) : Option Check :=
  match d.held g with
  | some (.committed _ i) => some i.check
  | _ => none

/-! ## Raising the window (R7, R10, R12, R19, R20) -/

/-- What an event did to the journal: the directory after it, the GAP GSNs it retired, and the GSNs it made GAP. -/
structure JournalChange where
  dir : Directory
  retired : List Nat
  opened : List Nat
  deriving DecidableEq, Repr

/-- The high rises to `newHigh`: the low becomes the larger of its old value and `newHigh - 4095`, the slots passed over
are retired, and every GSN from the larger of `start` and the new low up to below `stop` becomes GAP (R7, R10, R12,
R19). -/
def Directory.raise (d : Directory) (w : Window) (newHigh start stop : Nat) : JournalChange :=
  let newLow := max w.low (newHigh - 4095)
  let passed := List.range' w.low (min newLow (w.high + 1) - w.low)
  let retired := passed.filter fun g => d.holdsGap g
  let d1 := passed.foldl Directory.vacate d
  let first := max start newLow
  let opened := List.range' first (stop - first)
  let d2 := opened.foldl (fun acc g => acc.put (.gap g)) d1
  { dir := { d2 with window := some { low := newLow, high := newHigh } }, retired := retired, opened := opened }

/-- A confirmed live record whose descriptor is `x` (R6, R7, R8). A record below the frontier is stale and changes
nothing (notes/assumptions/36.md). -/
def Directory.live (d : Directory) (x : Slot) : JournalChange :=
  let g := x.gsn
  match d.window with
  | none =>
    { dir := { d.put x with window := some { low := g, high := g }, frontier := g + 1 }, retired := [], opened := [] }
  | some w =>
    if g < d.frontier then { dir := d, retired := [], opened := [] }
    else
      let c := d.raise w g d.frontier g
      { c with dir := { c.dir.put x with frontier := g + 1 } }

/-- A confirmed PRESENCE with frontier `p` (R10). -/
def Directory.presence (d : Directory) (p : Nat) : JournalChange :=
  if p ≤ d.frontier then { dir := d, retired := [], opened := [] }
  else match d.window with
    | none => { dir := { d with frontier := p }, retired := [], opened := [] }
    | some w =>
      let c := d.raise w (p - 1) d.frontier p
      { c with dir := { c.dir with frontier := p } }

/-- The frontier with which this station founds (R11). -/
def Directory.foundingFrontier (d : Directory) : Nat :=
  match d.window with
  | some w => w.high + 1
  | none => 1

/-- R23: the GSNs of a list that are GAP become LOST. -/
def Directory.markLost (d : Directory) (gsns : List Nat) : Directory :=
  gsns.foldl (fun acc g => if acc.holdsGap g then acc.put (.lost g) else acc) d

/-- The GAP GSNs of the window, lowest first. -/
def Directory.gaps (d : Directory) : List Nat := d.windowGsns.filter fun g => d.holdsGap g

/-- R11: founding; every GAP slot becomes LOST. -/
def Directory.found (d : Directory) : Directory :=
  { d.markLost d.gaps with frontier := d.foundingFrontier }

/-- R12: a fresh joiner learns `f`. -/
def Directory.learnFresh (d : Directory) (depth : Nat) (f : Nat) : JournalChange :=
  if depth = 0 ∨ f ≤ 1 then { dir := { d with frontier := f }, retired := [], opened := [] }
  else
    let low := max 1 (f - depth)
    let opened := List.range' low (f - low)
    let d1 := opened.foldl (fun acc g => acc.put (.gap g)) d
    { dir := { d1 with window := some { low := low, high := f - 1 }, frontier := f }, retired := [], opened := opened }

/-- R12, R13: a joiner learns `f`; the second value is the old window when the history was discarded. -/
def Directory.learn (d : Directory) (depth : Nat) (f : Nat) : JournalChange × Option Window :=
  match d.window with
  | none => (d.learnFresh depth f, none)
  | some w =>
    if f ≤ w.high then (Directory.reset.learnFresh depth f, some w)
    else if f = w.high + 1 then ({ dir := { d with frontier := f }, retired := [], opened := [] }, none)
    else
      let c := d.raise w (f - 1) (w.high + 1) f
      ({ c with dir := { c.dir with frontier := f } }, none)

/-! ## Notices of the directory -/

/-- One LOST notice for each contiguous run (R11, R20, R131). -/
def lostNotices (gsns : List Nat) : List Notice := (runsOf gsns).map fun r => .lost r.1 r.2

/-- The GAP_OPENED notice of the run an event opened, if it is not empty (R7, R10, R12). -/
def openedNotices : List Nat → List Notice
  | [] => []
  | g :: rest => [.gapOpened g (rest.length + 1)]

/-- The directory takes a change and posts its notices, LOST before GAP_OPENED (R20). -/
def State.journal (s : State) (c : JournalChange) : State :=
  (s.setDir c.dir).postAll (lostNotices c.retired ++ openedNotices c.opened)

end Sys2Proof.Machine
end

