-- ==== Sys2Proof/Machine/Transmit.lean ====
section
/-! DEFINITION. The transmit selector and the outbound queue (05_the_outbound_queue.md): offers, the choice, the frame in
flight, the head's states, the outcomes of its attempts, and drops. -/

namespace Sys2Proof.Machine

/-! ## Offers (R95) -/

/-- The offer of a sender other than the outbound queue. -/
def Selector.offer (x : Selector) : Sender → Option FrameBody
  | .sweep => x.sweep
  | .membership => x.membership
  | .requester => x.requester
  | .responder => x.responder
  | .outbound => none

/-- The offers with one sender's replaced. -/
def Selector.setOffer (x : Selector) (who : Sender) (b : Option FrameBody) : Selector :=
  match who with
  | .sweep => { x with sweep := b }
  | .membership => { x with membership := b }
  | .requester => { x with requester := b }
  | .responder => { x with responder := b }
  | .outbound => { x with record := b.isSome }

/-- The sender's frame is in flight, its result still wanted. -/
def Selector.flies (x : Selector) (who : Sender) : Bool :=
  match x.inFlight with
  | some f => f.sender == who && !f.discard
  | none => false

/-- A sender offers a frame. -/
def State.offer (s : State) (who : Sender) (b : FrameBody) : State := s.setSel (s.sel.setOffer who (some b))

/-- A sender withdraws its offer; a choice of it is ended (R97). -/
def State.unoffer (s : State) (who : Sender) : State :=
  let x := s.sel.setOffer who none
  s.setSel { x with choice := if x.choice = some who then none else x.choice }

/-- A sender withdraws its offer and offers the frame anew, unless the frame is the same (R107, R125). A choice of the old offer
ends; the model's choice is that the selector chooses again only with the new offer in, so that it competes too
(notes/assumptions/51.md). -/
def State.reoffer (s : State) (who : Sender) (b : FrameBody) : State :=
  if s.sel.offer who = some b then s else (s.unoffer who).offer who b

/-- The result of a sender's frame in flight is wanted no more (R119, R133, R138). -/
def State.discardFlight (s : State) (who : Sender) : State :=
  match s.sel.inFlight with
  | some f => if f.sender = who then s.setSel { s.sel with inFlight := some { f with discard := true } } else s
  | none => s

/-! ## The choice (R96, R97) -/

/-- The kinds that the station state allows (R96). -/
def kindAllowed (st : StationState) : FrameBody → Bool
  | .found _ => st == .founding
  | .join _ => st == .joining
  | .leave _ => st == .leaving
  | .quiet _ => st == .syncing || st == .member
  | .fetch .. => st == .syncing || st == .member
  | .gone .. => st == .syncing || st == .member
  | .replay .. => st == .syncing || st == .member
  | .record .. => st == .syncing || st == .member
  | .presence .. => st == .syncing || st == .member

/-- A sender's offer is present and of an allowed kind. -/
def Selector.offers (x : Selector) (st : StationState) (who : Sender) : Bool :=
  match who with
  | .outbound => x.record && (st == .syncing || st == .member)
  | _ => match x.offer who with
    | some b => kindAllowed st b
    | none => false

/-- The membership unit's offer is a PRESENCE, the last in the order. -/
def Selector.offersPresence (x : Selector) : Bool :=
  match x.membership with
  | some (.presence ..) => true
  | _ => false

/-- R96: the first allowed offer in the order QUIET, LEAVE, FOUND or JOIN, REPLAY or GONE, FETCH, RECORD, PRESENCE. -/
def Selector.pick (x : Selector) (st : StationState) : Option Sender :=
  if x.offers st .sweep then some .sweep
  else if x.offers st .membership && !x.offersPresence then some .membership
  else if x.offers st .responder then some .responder
  else if x.offers st .requester then some .requester
  else if x.offers st .outbound then some .outbound
  else if x.offers st .membership then some .membership
  else none

/-- The choice stands while its offer is present and allowed (notes/assumptions/20.md); on an idle bus without a choice
the selector chooses (R96). -/
def State.settleChoice (s : State) : State :=
  let standing := match s.sel.choice with
    | some c => s.sel.offers s.mem.st c
    | none => false
  let choice := if standing then s.sel.choice
    else if s.bus.rx = .idle then s.sel.pick s.mem.st else none
  s.setSel { s.sel with choice := choice }

/-! ## The head (R82, R85) -/

/-- No entry of the peer table carries a quiet mark; the own entry never does (R85, R115). -/
def State.noQuietMark (s : State) : Bool := s.mem.peers.toList.all fun p => p.quiet.isNone

/-- R85: the start conditions that do not depend on the head. -/
def State.mayStartRecord (s : State) : Bool :=
  s.inGroup && s.noQuietMark && s.conf.entries.length < Config.pendingMax && s.dir.frontier < Config.gsnLimit

/-- The head is CONTENDING and its RECORD offered while the start conditions hold, else WAITING and not offered (R85). -/
def State.settleHead (s : State) : State :=
  match s.out.entries with
  | h :: rest =>
    if h.state = .waiting ∨ h.state = .contending then
      let go := s.mayStartRecord
      (s.setOut { s.out with entries := { h with state := if go then .contending else .waiting } :: rest }).setSel
        { s.sel with record := go }
    else s.setSel { s.sel with record := false }
  | [] => s.setSel { s.sel with record := false }

/-- The head and then the choice follow the conditions. -/
def State.settleSend (s : State) : State := s.settleHead.settleChoice

/-! ## Leaving the queue (R88 to R94) -/

/-- The head leaves the queue; the next entry becomes the head (R82). -/
def State.popHead (s : State) : State := s.setOut { s.out with entries := s.out.entries.tail }

/-- The head is replaced. -/
def State.setHead (s : State) (h : OutEntry) : State := s.setOut { s.out with entries := h :: s.out.entries.tail }

/-- The head is dropped with a reason (R93). -/
def State.dropHead (s : State) (h : OutEntry) (r : DropReason) : State := s.popHead.post (.dropped h.tag r)

/-- Every entry is dropped, oldest first, and the RECORD offer withdrawn (R92, R94). -/
def State.dropAll (s : State) (r : DropReason) : State :=
  ((s.unoffer .outbound).setOut { s.out with entries := [], departing := false }).postAll
    (s.out.entries.map fun e => .dropped e.tag r)

/-- The START retry limit (R89). -/
def State.retryLimit (s : State) : Nat :=
  match s.params with
  | some p => p.retryLimit
  | none => 0

/-- R88 to R91: the head's attempt ends with an observed class and perhaps a readback failure mark. -/
def State.recordResult (s : State) (cls : Observed) (readback : Bool) : State :=
  match s.out.entries with
  | [] => s
  | h :: _ =>
    match h.state with
    | .inFlight _ =>
      if readback || cls == .content then
        let n := h.contentRetries + 1
        if s.retryLimit ≤ n then s.dropHead h .retryLimit
        else s.setHead { h with contentRetries := n, state := .waiting }
      else if cls == .none then s.popHead
      else if cls == .stale then
        let n := h.staleCount + 1
        if 4 ≤ n then s.dropHead h .staleLimit
        else s.setHead { h with staleCount := n, state := .staleWait (s.now + 2 * s.heartbeat) }
      else
        let n := h.busyRetries + 1
        if 32 ≤ n then s.dropHead h .busyLimit
        else s.setHead { h with busyRetries := n, state := .backoff (s.now + s.bt ((s.straps.station.val + 1) * 64)) }
    | _ => s

/-- R90: a confirmed frame that raises the frontier ends the head's STALE_WAIT. -/
def State.endStaleWait (s : State) : State :=
  match s.out.entries with
  | h :: _ =>
    match h.state with
    | .staleWait _ => s.setHead { h with state := .waiting }
    | _ => s
  | [] => s

/-- R92: at a frontier of 2^48 every entry is dropped. -/
def State.spendNumbers (s : State) : State :=
  if s.dir.frontier < Config.gsnLimit ∨ s.out.entries = [] then s else s.dropAll .numbersSpent

/-- R94: the departure's drop; an entry IN_FLIGHT first receives its outcome, so the drop then waits for its window
(R98, notes/assumptions/17.md). At DUPLICATE_STATION it is then posted after STATE(FAULT), where R118 and R100 put STATE(FAULT)
last: the model's choice (notes/assumptions/17.md). -/
def State.departQueue (s : State) : State :=
  match s.out.entries with
  | h :: _ =>
    match h.state with
    | .inFlight _ => if s.sel.flies .outbound then s.setOut { s.out with departing := true } else s.dropAll .departed
    | _ => s.dropAll .departed
  | [] => s.dropAll .departed

end Sys2Proof.Machine
end

