-- ==== Sys2Proof/Machine/Sweeps.lean ====
section
/-! DEFINITION. What follows by itself from a change (08_the_array_port_and_retention_sweeps.md, R70, R85, R107): the one
sweep request, the QUIET offer, the commit writer's request, the PRESENCE offer; and the changes of the receive state. -/

namespace Sys2Proof.Machine

/-! ## The receive state and the idle run -/

/-- The receive state changes; the idle run counts from the instant at which IDLE is entered (R149). -/
def State.setRx (s : State) (rx : RxState) : State :=
  let since := if rx = .idle then (match s.swp.idleSince with | some t => some t | none => some s.now) else none
  (s.setBus { s.bus with rx := rx }).setSwp { s.swp with idleSince := since }

/-! ## The sweep request (R146) -/

/-- An ordinary request falls due: R148 and R149 in SYNCING and MEMBER, R154 elsewhere. -/
def State.ordinaryDue (s : State) : Bool :=
  let b := s.swp.balance
  if s.inGroup then
    (decide (1 ≤ b) && s.conf.entries.isEmpty && s.bus.rx != .frame) ||
    (decide (-7 ≤ b) && decide (b ≤ 0) && s.bus.rx == .idle && decide (s.bt 200 ≤ s.idleRun))
  else
    decide (1 ≤ b) || (decide (-7 ≤ b) && decide (b ≤ 0) && decide (us 200 ≤ s.portQuietTime))

/-- R146: the rank of the most pressing reason for a slice; none in HELD and RESUMING (R161). -/
def State.sweepRank (s : State) : Option Nat :=
  if s.onHold then none
  else if 8 ≤ s.swp.balance then some 1
  else if s.swp.licence then some 6
  else if s.ordinaryDue then some 7
  else none

/-- R146: the engine places its request, or raises the one that waits; while a slice of its own is granted it places
none. -/
def State.settleSweep (s : State) : State :=
  if s.sliceGranted then s
  else match s.sweepRank, s.arb.sweep with
    | none, _ => s
    | some r, none => s.place .sweep r
    | some r, some q => if r < q.rank then s.withArb { s.arb with sweep := some { q with rank := r } } else s

/-! ## The QUIET offer (R150, R152) -/

/-- R150: the station and the balance call for a QUIET. -/
def State.quietDue (s : State) : Bool := s.inGroup && decide (6 ≤ s.swp.balance) && decide (s.swp.balance ≤ 7)

/-- The QUIET is offered while it is due, no licence stands and none is offered or in flight; an offer that is no longer
due is withdrawn (notes/assumptions/43.md). -/
def State.settleQuiet (s : State) : State :=
  match s.sel.sweep with
  | some _ => if s.quietDue then s else s.unoffer .sweep
  | none =>
    if s.quietDue && !s.swp.licence && !s.quietInFlight then s.offer .sweep (.quiet (sliceMicros s.straps.slice + 20))
    else s

/-! ## The commit writer's request (R70) -/

/-- The START commit mode is EARLY. -/
def State.earlyMode (s : State) : Bool :=
  match s.params with
  | some p => p.commitMode == .early
  | none => false

/-- R70: the entry is eligible for a write; no early write is made during a drain (R77). -/
def State.eligible (s : State) (e : PendEntry) : Bool :=
  match e.status with
  | .confirmed => true
  | .awaitingWindow tried => s.earlyMode && !tried && !s.conf.drain
  | .writtenEarly => false

/-- R70: the writer's request stands exactly while an eligible entry is held and no write is in progress. -/
def State.settleWriter (s : State) : State :=
  if s.conf.write.isNone && s.conf.entries.any s.eligible then
    match s.arb.writer with
    | some _ => s
    | none => s.place .writer 3
  else s.withdraw .writer

/-! ## The PRESENCE offer (R107) -/

/-- The low of the window, 0 when it is empty. -/
def State.windowLow (s : State) : Nat :=
  match s.dir.window with
  | some w => w.low
  | none => 0

/-- The high of the window, 0 when it is empty. -/
def State.windowHigh (s : State) : Nat :=
  match s.dir.window with
  | some w => w.high
  | none => 0

/-- The PRESENCE of the station as it stands. -/
def State.presenceBody (s : State) : FrameBody :=
  .presence s.dir.frontier s.windowLow ((s.dir.storedCheck (s.dir.frontier - 1)).getD 0) (s.mem.st == .member)

/-- R98: a PRESENCE that lost arbitration is offered unchanged, whatever the values have become. -/
def State.keepPresence (s : State) : State := s.setSel { s.sel with presenceKept := some s.presenceBody }

/-- R107: an offered PRESENCE whose values change is withdrawn and offered with the new ones; one that lost arbitration stays as
it was while they stay as they then were (R98, notes/assumptions/54.md). -/
def State.settlePresence (s : State) : State :=
  if s.inGroup && s.sel.offersPresence then
    if s.sel.presenceKept = some s.presenceBody then s
    else
      let s := s.reoffer .membership s.presenceBody
      s.setSel { s.sel with presenceKept := none }
  else s.setSel { s.sel with presenceKept := none }

/-! ## All of it -/

/-- What follows a change, once the event's own effects are done. It posts no notice. -/
def State.settle (s : State) : State :=
  s.settlePresence.settleHead.settleWriter.settleQuiet.settleSweep.settleChoice

end Sys2Proof.Machine
end

