-- ==== Sys2Proof/Machine/CatchUp.lean ====
section
/-! DEFINITION. The catch-up unit (07_catch_up.md): the requester context with its selection of a responder, the responder
context, and the gap reports that form and end contexts (R106, R121). -/

namespace Sys2Proof.Machine

/-! ## One event's notices in their order -/

/-- A state in the middle of an event, with the notices that the event still owes. R100, R131 and R133 give their order:
LOST of the catch-up unit, GAP_FILLED, STATE. -/
structure Batch where
  st : State
  lost : List Notice
  filled : List Notice
  states : List Notice
  deriving DecidableEq, Repr

/-- An event begins. -/
def State.batch (s : State) : Batch := { st := s, lost := [], filled := [], states := [] }

/-- The state changes; the owed notices stay. -/
def Batch.on (b : Batch) (f : State → State) : Batch := { b with st := f b.st }

/-- LOST notices are owed, one for each contiguous run (R131). -/
def Batch.oweLost (b : Batch) (gsns : List Nat) : Batch := { b with lost := b.lost ++ lostNotices gsns }

/-- GAP_FILLED notices are owed, one for each contiguous run (R133). -/
def Batch.oweFilled (b : Batch) (gsns : List Nat) : Batch :=
  { b with filled := b.filled ++ (runsOf gsns).map fun r => .gapFilled r.1 r.2 }

/-- The station state changes, its STATE notice is owed (R100). -/
def Batch.enter (b : Batch) (x : StationState) : Batch :=
  { b with st := b.st.setMem { b.st.mem with st := x }, states := b.states ++ [.state x] }

/-- The owed notices are posted. -/
def Batch.flush (b : Batch) : State := b.st.postAll (b.lost ++ b.filled ++ b.states)

/-! ## Peers as responders (R122) -/

/-- The station numbers. -/
def allStations : List Station := [0, 1, 2, 3, 4, 5, 6, 7, 8, 9, 10, 11, 12, 13, 14, 15]

/-- The entry of a station number. -/
def Membership.peer (m : Membership) (k : Station) : Peer := m.peers[k]

/-- The entry of a station number is replaced. -/
def Membership.setPeer (m : Membership) (k : Station) (p : Peer) : Membership := { m with peers := m.peers.set k p }

/-- R122: the entry meets the tests of a candidate for a run whose last GSN is `last`. -/
def Peer.isCandidate (p : Peer) (last : Nat) : Bool :=
  p.status == .active && p.divergence.isNone && (match p.heardFrontier with
    | some f => decide (last < f)
    | none => false)

/-- The heard low is present and at or below `first`. -/
def Peer.reaches (p : Peer) (first : Nat) : Bool :=
  match p.heardLow with
  | some l => decide (l ≤ first)
  | none => false

/-- The peers: every station number but the own. -/
def State.peerNumbers (s : State) : List Station := allStations.filter fun k => k != s.straps.station

/-- R122: the candidates for a run whose last GSN is `last`. -/
def State.candidates (s : State) (last : Nat) : List Station :=
  s.peerNumbers.filter fun k => (s.mem.peer k).isCandidate last

/-- R122: the usable candidates for a run. -/
def State.usable (s : State) (first last : Nat) : List Station :=
  (s.candidates last).filter fun k => (s.mem.peer k).reaches first

/-- The mark of a station in the tried set. -/
def triedMark (tried : List (Station × TriedMark)) (k : Station) : Option TriedMark :=
  (tried.find? fun e => e.1 == k).map Prod.snd

/-- R120: a station is marked; a later mark replaces an earlier one. -/
def markTried (tried : List (Station × TriedMark)) (k : Station) (m : TriedMark) : List (Station × TriedMark) :=
  (tried.filter fun e => e.1 != k) ++ [(k, m)]

/-- R122: the lowest usable candidate not tried, else the lowest that timed out. -/
def chooseResponder (tried : List (Station × TriedMark)) (usable : List Station) : Option Station :=
  match usable.find? fun k => triedMark tried k == none with
  | some k => some k
  | none => usable.find? fun k => triedMark tried k == some .timedOut

/-- The smallest of a list of numbers. -/
def smallest : List Nat → Option Nat
  | [] => none
  | n :: rest => match smallest rest with
    | none => some n
    | some m => some (min n m)

/-- R123: the low-end test; the first GSN that some peer heard could still hold, when it lies above `first`. -/
def State.lowEnd (s : State) (first : Nat) : Option Nat :=
  let lows := s.peerNumbers.filterMap fun k =>
    let p := s.mem.peer k
    if p.status = .active then p.heardLow else none
  match smallest lows with
  | some l => if first < l then some l else none
  | none => none

/-- R124: GONE-exhausted; the first GSN that a candidate not marked GONE holds, or one above the run. -/
def State.goneExhausted (s : State) (tried : List (Station × TriedMark)) (first last : Nat) : Option Nat :=
  let cands := s.candidates last
  let usable := s.usable first last
  if !usable.isEmpty && usable.all (fun k => triedMark tried k == some .gone) &&
      cands.all (fun k => (s.mem.peer k).heardLow.isSome) then
    let others := cands.filter fun k => triedMark tried k != some .gone
    some ((smallest (others.filterMap fun k => (s.mem.peer k).heardLow)).getD (last + 1))
  else none

/-! ## The requester context (R120 to R133) -/

/-- The run. -/
def RequesterCtx.run (c : RequesterCtx) : List Nat := List.range' c.first c.count

/-- R120: the outstanding GSNs of the run, lowest first. -/
def RequesterCtx.outstanding (c : RequesterCtx) (d : Directory) : List Nat :=
  c.run.filter fun g => d.holdsGap g || d.holdsTentative g

/-- A GSN of the run is TENTATIVE. -/
def RequesterCtx.hasTentative (c : RequesterCtx) (d : Directory) : Bool := c.run.any fun g => d.holdsTentative g

/-- Section 7.3: the run is cut to its lowest stretch of outstanding GSNs. -/
def RequesterCtx.cut (c : RequesterCtx) (d : Directory) : RequesterCtx :=
  match leadingRun (c.outstanding d) with
  | [] => c
  | g :: rest => { c with first := g, count := rest.length + 1 }

/-- The last GSN of the run. -/
def RequesterCtx.last (c : RequesterCtx) : Nat := c.first + c.count - 1

/-- The requester context is replaced. -/
def State.setRequester (s : State) (c : Option RequesterCtx) : State := s.setCat { s.cat with requester := c }

/-- R125: the FETCH offer of a context that is OFFERED, withdrawn and made again when its run has changed. -/
def State.offerFetch (s : State) (c : RequesterCtx) (k : Station) : State :=
  (s.setRequester (some { c with phase := .offered k, selectOwed := false, timeoutHeld := false })).reoffer .requester
    (.fetch k c.first c.count)

/-- R133: the end of the context; its FETCH offer is withdrawn and its received GSNs are reported, one notice for each contiguous
stretch. A stretch longer than 16 is one notice too, though R133 also gives a count of 1 to 16: the model's choice
(notes/assumptions/52.md). -/
def Batch.endRequester (b : Batch) : Batch :=
  match b.st.cat.requester with
  | none => b
  | some c => (b.on fun s => ((s.unoffer .requester).discardFlight .requester).setRequester none).oweFilled c.received

/-- R131: the GSNs of a list that are GAP are marked LOST and reported. -/
def Batch.giveUp (b : Batch) (gsns : List Nat) : Batch :=
  let d := b.st.dir
  (b.on fun s => s.setDir (d.markLost gsns)).oweLost (gsns.filter fun g => d.holdsGap g)

/-- R122 to R124: the selection of a responder; a selection met by a TENTATIVE slot waits for its window (section 7.3,
notes/assumptions/16.md). The number bounds its repetitions: each one gives up a GSN of the run. -/
def Batch.select : Nat → Batch → Batch
  | 0, b => b
  | n + 1, b =>
    match b.st.cat.requester with
    | none => b
    | some c =>
      let d := b.st.dir
      if c.hasTentative d then
        b.on fun s => (s.unoffer .requester).setRequester
          (some { c with phase := .waitingPeer, selectOwed := true, timeoutHeld := false })
      else if c.outstanding d = [] then b.endRequester
      else
        let c := c.cut d
        match chooseResponder c.tried (b.st.usable c.first c.last) with
        | some k => b.on fun s => s.offerFetch c k
        | none =>
          let b := b.on fun s => (s.unoffer .requester).setRequester
            (some { c with phase := .waitingPeer, selectOwed := false, timeoutHeld := false })
          match b.st.lowEnd c.first with
          | some l => Batch.select n (b.giveUp (c.run.filter fun g => decide (g < l)))
          | none =>
            match b.st.goneExhausted c.tried c.first c.last with
            | some m => Batch.select n (b.giveUp (c.run.filter fun g => decide (g < m)))
            | none => b

/-- The selection, with room for a run of 16 GSNs. -/
def Batch.selectResponder (b : Batch) : Batch := b.select 17

/-- The context's responder is marked, with the attempt number that follows. -/
def RequesterCtx.mark (c : RequesterCtx) (k : Station) (m : TriedMark) (attempt : Nat) : RequesterCtx :=
  { c with tried := markTried c.tried k m, attempt := attempt, timeoutHeld := false }

/-- R129: the attempt is complete: the responder is marked GONE and the selection made again. -/
def Batch.completeAttempt (b : Batch) (c : RequesterCtx) (k : Station) : Batch :=
  (b.on fun s => s.setRequester (some (c.mark k .gone 1))).selectResponder

/-- R130: the timeout is applied. -/
def Batch.applyTimeout (b : Batch) (c : RequesterCtx) (k : Station) : Batch :=
  if 3 ≤ c.attempt then
    ((b.on fun s => s.setRequester (some (c.mark k .timedOut c.attempt))).giveUp (c.outstanding b.st.dir)).endRequester
  else (b.on fun s => s.setRequester (some (c.mark k .timedOut (c.attempt + 1)))).selectResponder

/-- R130: the attempt has timed out; while a GSN of the run is TENTATIVE the timeout is held. -/
def Batch.timeOut (b : Batch) : Batch :=
  match b.st.cat.requester with
  | some c =>
    match c.phase with
    | .awaiting k answered _ =>
      if c.hasTentative b.st.dir then
        b.on fun s => s.setRequester (some { c with phase := .awaiting k answered none, timeoutHeld := true })
      else b.applyTimeout c k
    | _ => b
  | none => b

/-- What every change that bears on the context leaves to be done (R125, R129, R130, R133, section 7.3): its end, a
completed attempt, a held timeout, an owed selection, a FETCH offer whose run or responder no longer fits. R125 wants the run
of a standing offer all GAP and does not say what becomes of a run that a fill splits: the model's choice is the cut of section
7.3 to the lowest outstanding stretch, which releases the GSNs above it (notes/assumptions/49.md). -/
def Batch.recheck (b : Batch) : Batch :=
  match b.st.cat.requester with
  | none => b
  | some c =>
    let d := b.st.dir
    if !b.st.inGroup then b
    else if c.outstanding d = [] then b.endRequester
    else match c.phase with
      | .awaiting k answered _ =>
        if (c.outstanding d).all answered.contains then b.completeAttempt c k
        else if c.timeoutHeld && !c.hasTentative d then b.applyTimeout c k
        else b
      | .offered k =>
        if b.st.sel.flies .requester then b
        else if (b.st.candidates (c.cut d).last).contains k then b.on fun s => s.offerFetch (c.cut d) k
        else b.selectResponder
      | .waitingPeer => if c.selectOwed && !c.hasTentative d then b.selectResponder else b

/-- The GSNs of a run above the highest retired one. -/
def runAbove (first count : Nat) (retired : List Nat) : Nat × Nat :=
  match (retired.filter fun g => decide (first ≤ g) && decide (g < first + count)).getLast? with
  | some g => (g + 1, first + count - (g + 1))
  | none => (first, count)

/-- R132: the retired GAP GSNs leave the run and the answered set. -/
def State.applyRetired (s : State) (retired : List Nat) : State :=
  match s.cat.requester with
  | none => s
  | some c =>
    let run := runAbove c.first c.count retired
    let phase := match c.phase with
      | .awaiting k answered dl => .awaiting k (answered.filter fun g => !retired.contains g) dl
      | p => p
    s.setRequester (some { c with first := run.1, count := run.2, phase := phase })

/-- R124: a confirmed PRESENCE is handed to a context in WAITING_PEER. -/
def Batch.presenceHeard (b : Batch) : Batch :=
  match b.st.cat.requester with
  | some c => if c.phase = .waitingPeer then b.selectResponder else b
  | none => b

/-- R126: the deadline is set again, unless a timeout is held. -/
def RequesterCtx.answer (c : RequesterCtx) (k : Station) (answered : List Nat) (now : Nat) : RequesterCtx :=
  { c with phase := .awaiting k answered (if c.timeoutHeld then none else some (now + ms 10)) }

/-- R127: a confirmed REPLAY addressed here; `filled` when the directory filled its slot. -/
def Batch.replayHeard (b : Batch) (sender : Station) (g : Nat) (filled : Bool) : Batch :=
  match b.st.cat.requester with
  | none => if filled then b.oweFilled [g] else b
  | some c =>
    let c := if filled then { c with received := gsnInsert g c.received } else c
    let c := match c.phase with
      | .awaiting k answered _ =>
        if sender = k ∧ c.run.contains g then c.answer k (gsnInsert g answered) b.st.now else c
      | _ => c
    b.on fun s => s.setRequester (some c)

/-- R128: a confirmed GONE addressed here. -/
def Batch.goneHeard (b : Batch) (sender : Station) (first count : Nat) : Batch :=
  match b.st.cat.requester with
  | none => b
  | some c =>
    match c.phase with
    | .awaiting k answered _ =>
      let hit := (List.range' first count).filter c.run.contains
      if sender = k ∧ hit ≠ [] then
        b.on fun s => s.setRequester (some (c.answer k (hit.foldl (fun acc g => gsnInsert g acc) answered) s.now))
      else b
    | _ => b

/-- R125: the FETCH's result. -/
def State.fetchResult (s : State) (stands : Bool) : State :=
  match s.cat.requester with
  | some c =>
    match c.phase with
    | .offered k => if stands then s.setRequester (some { c with phase := .awaiting k [] (some (s.now + ms 10)) }) else s
    | _ => s
  | none => s

/-! ## Gap reports and new contexts (R5, R106, R121) -/

/-- R106: in SYNCING and MEMBER the station state follows the gap count. -/
def Batch.gapReport (b : Batch) : Batch :=
  if b.st.mem.st = .member ∧ 0 < b.st.dir.gapCount then b.enter .syncing
  else if b.st.mem.st = .syncing ∧ b.st.dir.gapCount = 0 then b.enter .member
  else b

/-- R121: a context over the lowest run of GAP slots, and its first selection. -/
def Batch.formContext (b : Batch) : Batch :=
  match (leadingRun b.st.dir.gaps).take 16 with
  | [] => b
  | g :: rest =>
    (b.on fun s => s.setRequester (some
      { first := g, count := rest.length + 1, phase := .waitingPeer, received := [], attempt := 1, tried := [],
        timeoutHeld := false, selectOwed := false })).selectResponder

/-- R121, R106: while SYNCING without a context one is formed; the station state follows the gap count before and after.
The number bounds the repetitions: a context that ends at once has given up a GAP slot. -/
def Batch.formContexts : Nat → Batch → Batch
  | 0, b => b.gapReport
  | n + 1, b =>
    let b := b.gapReport
    if b.st.mem.st = .syncing ∧ b.st.cat.requester = none then Batch.formContexts n b.formContext else b

/-- The gap reports and new contexts at the end of an event (notes/assumptions/22.md). -/
def Batch.followGaps (b : Batch) : Batch := b.formContexts (b.st.dir.gapCount + 1)

/-! ## The responder context (R134 to R138) -/

/-- The responder context is replaced. -/
def State.setResponder (s : State) (r : Option ResponderCtx) : State := s.setCat { s.cat with responder := r }

/-- R135: the class of a lookup is one of the four that are answered with GONE. -/
def LookupClass.notHeld : LookupClass → Bool
  | .above => true
  | .below => true
  | .gap => true
  | .lost => true
  | .filling => false
  | .tentative _ => false
  | .committed _ => false

/-- R135: the GONE from GSN `n` over the stretch not held, at most up to `last`. -/
def Directory.goneFrom (d : Directory) (requester : Station) (n last : Nat) : FrameBody :=
  .gone requester n ((gsnRange n last).takeWhile fun g => (d.lookup g).notHeld).length

/-- The responder offers a frame (R135, R136, R137). -/
def State.offerResponse (s : State) (r : ResponderCtx) (frame : FrameBody) : State :=
  (s.setResponder (some { r with phase := .offered frame })).reoffer .responder frame

/-- R135: the responder judges its next GSN; in LEAVING it does no work (R119). -/
def State.respDecide (s : State) (r : ResponderCtx) : State :=
  if !s.inGroup then s
  else if (s.dir.lookup r.next).notHeld then s.offerResponse r (s.dir.goneFrom r.requester r.next r.last)
  else (s.setResponder (some { r with phase := .reading none })).place .responder 4

/-- R136: in SETTLING, a change of the slot returns the context to DECIDING. -/
def State.respSettle (s : State) : State :=
  match s.cat.responder with
  | some r =>
    if r.phase = .settling then
      match s.dir.lookup r.next with
      | .filling => s
      | .tentative _ => s
      | _ => s.respDecide r
    else s
  | none => s

/-- The grant of a replay read whose result nobody wants (R138). -/
def Grant.discarded (g : Grant) : Grant :=
  match g.op with
  | .replayRead frame _ => { g with op := .replayRead frame false }
  | _ => g

/-- R138: the end of the responder context. -/
def State.endResponder (s : State) : State :=
  match s.cat.responder with
  | none => s
  | some _ =>
    let s := (((s.unoffer .responder).discardFlight .responder).withdraw .responder).setResponder none
    s.setArb { s.arb with grant := s.arb.grant.map Grant.discarded }

/-- R134: a confirmed FETCH that names this station is taken if no responder context is present. -/
def State.takeFetch (s : State) (requester : Station) (first count : Nat) : State :=
  match s.cat.responder with
  | some _ => s
  | none =>
    s.respDecide { requester := requester, next := first, last := first + count - 1, retries := 0, phase := .deciding }

/-- The GSN that follows a frame of the responder (R137). -/
def FrameBody.nextAfter (b : FrameBody) (n : Nat) : Nat :=
  match b with
  | .gone _ first count => first + count
  | _ => n + 1

/-- R137: the result of the responder's frame. -/
def State.respResult (s : State) (stands full : Bool) : State :=
  match s.cat.responder with
  | some r =>
    match r.phase with
    | .offered frame =>
      if stands then
        let next := frame.nextAfter r.next
        if r.last < next then s.endResponder else s.respDecide { r with next := next, retries := 0, phase := .deciding }
      else if 3 ≤ r.retries + 1 then s.endResponder
      else if full then
        s.setResponder (some { r with
          retries := r.retries + 1, phase := .backoff frame (s.now + s.bt ((s.straps.station.val + 1) * 64)) })
      else s.offerResponse { r with retries := r.retries + 1 } frame
    | _ => s
  | none => s

/-- R119: at a departure both contexts are cleared. -/
def Batch.clearContexts (b : Batch) : Batch := (b.on State.endResponder).endRequester

/-- R119: at the entry to LEAVING the deadline is stopped and a read not yet granted is withdrawn. -/
def State.suspendContexts (s : State) : State :=
  let s := s.withdraw .responder
  match s.cat.requester with
  | some c =>
    match c.phase with
    | .awaiting k answered _ => s.setRequester (some { c with phase := .awaiting k answered none })
    | _ => s
  | none => s

end Sys2Proof.Machine
end

