-- ==== Sys2Proof/Machine/Member.lean ====
section
/-! DEFINITION. The membership unit (06_group_membership_and_the_peer_table.md) with the drain it asks for (R77), the
switching of the bus interface (R28, R42) and the door of hold (R161). -/

namespace Sys2Proof.Machine

/-! ## The peer table (R110 to R115) -/

/-- The peer table's view of a station number: the own entry mirrors the station (R115). -/
def State.peerView (s : State) (k : Station) : Peer :=
  if k = s.straps.station then
    { Peer.reset with
      status := if s.inGroup then .active else .absent
      heardFrontier := if s.dir.frontier = 0 then none else some s.dir.frontier
      heardLow := s.dir.window.map Window.low }
  else s.mem.peer k

/-- R111, R113, R114: an entry after a confirmed frame of its peer at instant `now`. -/
def Peer.hear (p : Peer) (b : FrameBody) (now : Nat) : Peer :=
  let p := { p with status := .active, missed := 0, heard := true }
  match b with
  | .record g _ _ => { p with heardFrontier := some (g + 1) }
  | .presence f l _ m =>
    { p with heardFrontier := some f, heardLow := if l = 0 then none else some l, heardMember := some m }
  | .found f => { p with heardFrontier := some f }
  | .join h => { p with heardRetained := some h, heardFrontier := none, heardLow := none, divergence := none }
  | .leave r => { p with status := if r = .hold then .held else .left, quiet := none, divergence := none }
  | .quiet d => { p with quiet := some (now + us d) }
  | .fetch .. => p
  | .gone .. => p
  | .replay .. => p

/-- The frame is a LEAVE. -/
def FrameBody.isLeave : FrameBody → Bool
  | .leave _ => true
  | _ => false

/-- R111, R113, R114: the sender's entry, and PEER_CHANGE with the final status. -/
def State.peerHeard (s : State) (k : Station) (b : FrameBody) : State :=
  let old := s.mem.peer k
  let new := old.hear b s.now
  let s := s.setMem (s.mem.setPeer k new)
  if old.status ≠ .active ∨ b.isLeave then s.post (.peerChange k new.status) else s

/-- R116: the fault flag is set while the station is SYNCING or MEMBER. -/
def State.flagFault (s : State) : State := if s.inGroup then s.setMem { s.mem with faultFlag := true } else s

/-- R108: the divergence check at a member. -/
def State.checkDivergence (s : State) (k : Station) (p : Nat) (check : Check) : State :=
  match s.dir.storedCheck (p - 1) with
  | none => s
  | some stored =>
    if s.inGroup && check != 0 && stored != check then
      let old := s.mem.peer k
      let s := (s.setMem (s.mem.setPeer k { old with divergence := some (p - 1) })).flagFault
      if old.divergence = some (p - 1) then s else s.post (.divergence k (p - 1))
    else s

/-- R110: every entry except the own entry is reset; the own entry is computed and holds nothing. -/
def State.resetPeers (s : State) : State := s.setMem { s.mem with peers := Vector.replicate 16 Peer.reset }

/-- R112: a tick visits an entry. -/
def Peer.tick (p : Peer) : Peer :=
  if p.status ≠ .active then p
  else if p.heard then { p with heard := false }
  else if 3 ≤ p.missed + 1 then { p with missed := 3, status := .silent, quiet := none }
  else { p with missed := p.missed + 1 }

/-- R112: a tick visits the entry of a peer; PEER_CHANGE when it becomes SILENT. -/
def State.visit (s : State) (k : Station) : State :=
  let old := s.mem.peer k
  let new := old.tick
  let s := s.setMem (s.mem.setPeer k new)
  if old.status = .active ∧ new.status = .silent then s.post (.peerChange k .silent) else s

/-! ## Switching the bus interface (R28, R42, R44) -/

/-- The interface takes a new receive state and abandons what it was receiving: the filter's records are emptied, and the
heartbeat tick stops (R112). -/
def State.retune (s : State) (target : RxState) : State :=
  let s := s.setMem { s.mem with tick := none }
  let bus := { s.bus with windows := [], offTarget := none }
  let bus := if target = .syncWait then
      { bus with dataFault := false, objFault := false, inhibit := false, objWatch := false, recessiveSince := s.now }
    else bus
  (((s.setBus bus).setRx target).setFilter { receive := none, window := none }).setConf { s.conf with decision := none }

/-- A frame that this station sends is being received. -/
def Filter.receivesOwn (f : Filter) : Bool :=
  match f.receive with
  | some r => r.own
  | none => false

/-- R42: an own frame is on the bus or in its window. -/
def State.ownUnderWay (s : State) : Bool := s.filter.receivesOwn || s.bus.windows.any fun w => w.own

/-- R42: while an own frame is under way, only it is followed, and the switching waits for the end of its window
(notes/assumptions/18.md). -/
def State.finishOwn (s : State) (target : RxState) : State :=
  let windows := s.bus.windows.filter fun w => w.own
  let rx := if s.filter.receivesOwn then RxState.frame
    else if windows.any fun w => w.opened then .window else .preWindow
  ((s.setBus { s.bus with windows := windows, offTarget := some target }).setRx rx).setFilter
    { s.filter with receive := if s.filter.receivesOwn then s.filter.receive else none }

/-- The interface is switched on (SYNC_WAIT), off, or to STOPPED (R28, R42); the heartbeat tick runs on until it is (R112, R118). -/
def State.switchTo (s : State) (target : RxState) : State :=
  if s.ownUnderWay then s.finishOwn target else s.retune target

/-- The interface is on and stays on. -/
def Bus.steady (b : Bus) : Bool := b.on && b.offTarget.isNone

/-! ## LISTENING, FOUNDING, JOINING (R101 to R105) -/

/-- The station state changes at once, with its STATE notice (R100). -/
def State.enter (s : State) (x : StationState) : State := (s.setMem { s.mem with st := x }).post (.state x)

/-- R101: the entry to LISTENING. -/
def State.enterListening (s : State) : State :=
  let on := s.bus.steady
  let s := s.setMem { s.mem with
    learned := none, highBefore := none, joinWait := none, listenOwed := !on,
    listenTimer := if on then some (s.now + 3 * s.heartbeat) else none }
  (if on then s else s.switchTo .syncWait).enter .listening

/-- The first IDLE after a switch-on starts the heartbeat tick and the listen timer (R101, R112). -/
def State.reachIdle (s : State) : State :=
  let s := s.setRx .idle
  s.setMem { s.mem with
    tick := match s.mem.tick with | some t => some t | none => some (s.now + s.heartbeat)
    listenTimer := if s.mem.listenOwed then some (s.now + 3 * s.heartbeat) else s.mem.listenTimer
    listenOwed := false }

/-- The frontier that a frame teaches (R103). -/
def FrameBody.teaches : FrameBody → Option Nat
  | .record g _ _ => some (g + 1)
  | .presence f _ _ _ => some f
  | .found f => some f
  | _ => none

/-- The START history depth (R12). -/
def State.historyDepth (s : State) : Nat :=
  match s.params with
  | some p => p.historyDepth
  | none => 0

/-- R103: the join learns a frontier and offers its JOIN. -/
def State.learn (s : State) (f : Nat) : State :=
  let high := s.windowHigh
  let (change, old) := s.dir.learn s.historyDepth f
  let s := match old with
    | some w => s.post (.historyDiscarded w.low w.high)
    | none => s
  let s := s.journal change
  (s.setMem { s.mem with learned := some f, highBefore := some high, joinWait := none }).reoffer .membership (.join high)

/-- R101, R102, R103, R105: a confirmed frame of the group from a peer reaches a station in LISTENING, FOUNDING or
JOINING. -/
def Batch.groupHeard (b : Batch) (k : Station) (body : FrameBody) : Batch :=
  let b := b.on fun s => s.peerHeard k body
  let joins := b.st.mem.st ≠ .joining
  let b := if joins then
      (b.on fun s => (s.unoffer .membership).setMem { s.mem with listenTimer := none }).enter .joining
    else b
  match body.teaches, b.st.mem.learned with
  | some f, none => b.on fun s => s.learn f
  | _, _ =>
    if joins then b.on fun s => s.setMem { s.mem with joinWait := some (s.now + 3 * s.heartbeat) } else b

/-- R102, R104: the entry to SYNCING or MEMBER by the gap count. -/
def Batch.enterGroup (b : Batch) : Batch :=
  (b.on fun s => (s.setConf { s.conf with budget := 0 }).setMem { s.mem with
    faultFlag := false, learned := none, highBefore := none, joinOwed := false, listenTimer := none, joinWait := none,
    presence := some (s.now + s.heartbeat) }).enter (if 0 < b.st.dir.gapCount then .syncing else .member)

/-! ## The drain (R69, R77) -/

/-- The entry's window has closed with NONE. -/
def PendEntry.isConfirmed (e : PendEntry) : Bool := e.status == .confirmed

/-- R18: the TENTATIVE slot of a voided REPLAY returns to GAP. -/
def Directory.rollBack (d : Directory) (e : PendEntry) : Directory :=
  if e.status = .writtenEarly ∧ d.holdsTentative e.gsn then d.put (.gap e.gsn) else d

/-- The entry of a current early write leaves the pending window (R69). -/
def CurrentWrite.lose (w : CurrentWrite) : CurrentWrite := if w.early then { w with entryPresent := false } else w

/-- R69: the entry that awaits its window is voided. -/
def State.voidPending (s : State) : State :=
  let gone := s.conf.entries.filter fun e => !e.isConfirmed
  (s.setDir (gone.foldl Directory.rollBack s.dir)).setConf
    { s.conf with entries := s.conf.entries.filter PendEntry.isConfirmed, write := s.conf.write.map CurrentWrite.lose }

/-- R77: the drain is requested. -/
def State.requestDrain (s : State) : State :=
  let s := s.voidPending
  s.setConf { s.conf with drain := true }

/-! ## Leaving and FAULT (R116 to R118) -/

/-- R116: the entry to LEAVING. -/
def State.enterLeaving (s : State) (reason : LeaveReason) : State :=
  let s := (s.unoffer .membership).suspendContexts
  let s := s.setMem { s.mem with
    presence := none
    leave := some { reason := reason, voided := 0, timer := some (s.now + 3 * s.heartbeat), expired := false } }
  (s.enter .leaving).offer .membership (.leave reason)

/-- FAULT to DETACHED (R118), or the end of a LEAVE (R117). -/
def State.detach (s : State) : State :=
  ((s.setMem { s.mem with leave := none }).switchTo .off).enter .detached

/-- R117: LEAVING ends its group part. -/
def Batch.endGroupPart (b : Batch) : Batch :=
  let b := b.on fun s =>
    ((s.setMem { s.mem with leave := s.mem.leave.map fun l => { l with timer := none, expired := false } }).unoffer
      .membership).departQueue
  b.clearContexts.on fun s => s.resetPeers.requestDrain

/-- R117: the LEAVE's result; nothing once the group part has ended. -/
def Batch.leaveResult (b : Batch) (stands : Bool) : Batch :=
  match b.st.mem.leave with
  | none => b
  | some l =>
    if b.st.mem.st ≠ .leaving ∨ b.st.conf.drain = true then b
    else if stands then b.endGroupPart
    else
      let b := b.on fun s => s.setMem { s.mem with leave := some { l with voided := l.voided + 1 } }
      if l.expired = true ∨ 3 ≤ l.voided + 1 then b.endGroupPart
      else b.on fun s => s.offer .membership (.leave l.reason)

/-- R118: the entry to FAULT, in the order the rule gives; while the window of an own RECORD has still to end, the drops of step 4
come at its end, after STATE(FAULT) (the model's choice, notes/assumptions/17.md). -/
def Batch.enterFault (b : Batch) : Batch :=
  let b := b.enter .fault
  let b := b.on fun s =>
    ((s.setMem { s.mem with
      leave := none, learned := none, highBefore := none, listenTimer := none, listenOwed := false, joinWait := none,
      presence := none, joinOwed := false, departWait := 0 }).unoffer .membership).departQueue
  b.clearContexts.on fun s => (s.resetPeers.requestDrain).switchTo .stopped

/-- R41: a frame of another station bears this station's number. -/
def State.duplicateFound (s : State) : State :=
  ((s.post .duplicateStation).setFilter { s.filter with receive := none }).batch.enterFault.flush

/-- R40: a low of the objection line is found where none may be; once for each occurrence. -/
def State.objectionFault (s : State) : State :=
  if s.bus.objFault then s
  else ((s.setBus { s.bus with objFault := true }).post (.lineFault .objection)).flagFault

/-! ## The commands that move the station (R116, R171, R173) -/

/-- LEAVE is taken. -/
def State.takeLeave (s : State) : State :=
  if s.inGroup then (s.enterLeaving (if s.mem.faultFlag then .faultExit else .stop)).answer (.ok .leave)
  else if s.mem.st = .fault then s.detach.answer (.ok .leave)
  else s.answer (.refusedState .leave)

/-- HOLD is taken (R158). -/
def State.takeHold (s : State) : State :=
  if s.inGroup then (s.enterLeaving .hold).answer (.ok .hold) else s.answer (.refusedState .hold)

/-! ## The end of the drain (R77, R104, R117, R161) -/

/-- R161: the entry to HELD. -/
def State.enterHeld (s : State) : State :=
  let s := (((s.setMem { s.mem with leave := none }).switchTo .off).enter .held).withdraw .sweep
  let s := s.setSwp { s.swp with
    licence := false, intervalEnd := none, holdTimer := some (s.now + holdSpacing s.temp.cls), passState := some .waiting }
  s.place .sweep 8

/-- What the report of drain complete brings about in the station state (R77). -/
def Batch.drained (b : Batch) : Batch :=
  match b.st.mem.st, b.st.mem.leave with
  | .leaving, some l => if l.reason = .hold then b.on State.enterHeld else b.on State.detach
  | .joining, _ => if b.st.mem.joinOwed then b.enterGroup else b
  | _, _ => b

end Sys2Proof.Machine
end

