-- ==== Sys2Proof/Machine/Confirm.lean ====
section
/-! DEFINITION. The confirmation unit and what a window's end hands on (04_confirmation.md, R53 to R59): the decision at the
frame end, the pending entry, the outcome, the objection budget, the result of an own frame, the handover. -/

namespace Sys2Proof.Machine

/-! ## The decision at a frame end (R61 to R67) -/

/-- An entry of the pending window holds this GSN. -/
def State.pendingHolds (s : State) (g : Nat) : Bool := s.conf.entries.any fun e => e.gsn == g

/-- R62: the decision for a sound frame of general scope. -/
def State.decideGeneral (s : State) (body : FrameBody) : Decision :=
  match body with
  | .record g _ _ =>
    if g < s.dir.frontier then .object .stale
    else if Config.pendingMax ≤ s.conf.entries.length then .object .full
    else .noObjection
  | _ => .noObjection

/-- R63: the decision for a sound frame addressed to this station. -/
def State.decideAddressed (s : State) (body : FrameBody) : Decision :=
  match body with
  | .replay _ g _ _ _ =>
    if s.pendingHolds g then .noObjection
    else if Config.pendingMax ≤ s.conf.entries.length then .object .full
    else .noObjection
  | _ => .noObjection

/-- R61: the decision for a frame that has ended; none where the unit makes none. -/
def State.decideFrame (s : State) (c : Classified) : Option Decision :=
  if !s.inGroup then none
  else match c with
    | .foreign => none
    | .failure .addressedElsewhere => some .addressedElsewhere
    | .failure _ => some (.object .content)
    | .sound _ _ _ .addressedElsewhere => some .addressedElsewhere
    | .sound _ body _ .addressedHere => some (s.decideAddressed body)
    | .sound _ body _ .general => some (s.decideGeneral body)

/-- R66, R67: the pending entry of a frame to which this station does not object; none where the frame takes none. -/
def State.pendingEntry (s : State) (c : Classified) (own : Bool) : Option PendEntry :=
  match c with
  | .sound sender (.record g t payload) check .general =>
    some { gsn := g, live := true, origin := sender, tag := t, payload := payload, check := check,
           status := .awaitingWindow false, own := own }
  | .sound _ (.replay _ g o t payload) check .addressedHere =>
    if s.pendingHolds g then none
    else some { gsn := g, live := false, origin := o, tag := t, payload := payload, check := check,
                status := .awaitingWindow false, own := own }
  | _ => none

/-- R61 to R67: the decision record and the pending entry of a frame that has ended. -/
def State.judge (s : State) (c : Classified) (own : Bool) : State :=
  match s.decideFrame c with
  | none => s.setConf { s.conf with decision := none }
  | some dec =>
    match (if dec = .noObjection then s.pendingEntry c own else none) with
    | some e => s.setConf { s.conf with entries := s.conf.entries ++ [e],
                                        decision := some { decision := dec, hasEntry := true } }
    | none => s.setConf { s.conf with decision := some { decision := dec, hasEntry := false } }

/-- The class that the decision record has this station raise. -/
def Confirmation.objection (c : Confirmation) : Option ObjClass :=
  match c.decision with
  | some d => (match d.decision with
    | .object k => some k
    | .noObjection => none
    | .addressedElsewhere => none)
  | none => none

/-! ## The frame end (R35, R50 to R59) -/

/-- The receive record at a frame end. An own frame that was read back well is the frame that was sent
(notes/assumptions/5.md). -/
def State.ended (s : State) (r : ReceiveRecord) (bytes : List Byte) (framing : List Nat) (truncated : Bool) :
    ReceiveRecord :=
  match s.sel.inFlight, s.params with
  | some f, some p =>
    if r.own && !r.readback && !truncated then
      { r with bytes := frameBytes p.group s.straps.station f.body, framing := [], truncated := false }
    else { r with bytes := bytes, framing := framing, truncated := truncated }
  | _, _ => { r with bytes := bytes, framing := framing, truncated := truncated }

/-- The START group number; none before START. -/
def State.group (s : State) : Option Byte := s.params.map StartParams.group

/-- R35, R44, R59: the frame is handed to the filter, its decision made, its window due in 2 bt. -/
def State.endFrame (s : State) (r : ReceiveRecord) : State :=
  let overlapping := !s.bus.windows.isEmpty
  let run : WindowRun := { opened := false, overlapping := overlapping, own := r.own, readback := r.readback,
                           pulled := 0, due := s.now + s.bt 2 }
  let s := s.setRx .preWindow
  if overlapping then
    (s.setFilter { s.filter with receive := none }).setBus { s.bus with windows := s.bus.windows ++ [run] }
  else
    let c := r.classify s.group s.straps.station
    let s := (s.setFilter { receive := none, window := some c }).judge c r.own
    let pulled := match s.conf.objection with
      | some k => k.width
      | none => 0
    s.setBus { s.bus with windows := [{ run with pulled := pulled }] }

/-! ## The outcome of a window (R68, R69) -/

/-- What the outcome did to the journal: the GAP slots it retired, and whether it filled the slot of a REPLAY. -/
structure Outcome where
  st : State
  retired : List Nat
  filled : Bool
  deriving DecidableEq, Repr

/-- The fields a slot takes from a pending entry (R2). -/
def PendEntry.info (e : PendEntry) : RecordInfo :=
  { origin := e.origin, tag := e.tag, length := e.payload.length, check := e.check }

/-- An entry whose status is replaced. -/
def PendEntry.withStatus (e : PendEntry) (x : PendStatus) : PendEntry := { e with status := x }

/-- The entries with the one of a GSN replaced. -/
def replaceEntry (g : Nat) (e : PendEntry) (entries : List PendEntry) : List PendEntry :=
  entries.map fun x => if x.gsn = g then e else x

/-- The entries without the one of a GSN. -/
def removeEntry (g : Nat) (entries : List PendEntry) : List PendEntry := entries.filter fun x => x.gsn != g

/-- The pending entries are replaced. -/
def State.setEntries (s : State) (entries : List PendEntry) : State := s.setConf { s.conf with entries := entries }

/-- R68: an early write in progress is counted as the late write of its confirmed entry. -/
def State.confirmEntry (s : State) (e : PendEntry) : State :=
  s.setConf { s.conf with
    entries := replaceEntry e.gsn (e.withStatus .confirmed) s.conf.entries
    write := s.conf.write.map fun w => if w.early && w.entryPresent then { w with early := false } else w }

/-- The entry leaves the pending window; a write of it in progress runs on without it (R68). -/
def State.declineEntry (s : State) (e : PendEntry) : State :=
  s.setConf { s.conf with
    entries := removeEntry e.gsn s.conf.entries, write := s.conf.write.map CurrentWrite.lose }

/-- R15, R18: COMMITTED for an own live record. -/
def State.postCommitted (s : State) (e : PendEntry) : State :=
  if e.live ∧ e.origin = s.straps.station then s.post (.committed e.tag e.gsn) else s

/-- R68: the frame's entry is confirmed. -/
def State.confirmed (s : State) (e : PendEntry) : Outcome :=
  if e.status = .writtenEarly then
    let s := s.setEntries (removeEntry e.gsn s.conf.entries)
    if e.live then
      let c := s.dir.live (.committed e.gsn e.info)
      { st := (s.journal c).postCommitted e, retired := c.retired, filled := false }
    else if s.dir.holdsTentative e.gsn then
      { st := s.setDir (s.dir.put (.committed e.gsn e.info)), retired := [], filled := true }
    else { st := s, retired := [], filled := false }
  else if e.live then
    let c := s.dir.live (.filling e.gsn e.info)
    { st := (s.confirmEntry e).journal c, retired := c.retired, filled := false }
  else if s.dir.holdsGap e.gsn then
    { st := (s.confirmEntry e).setDir (s.dir.put (.filling e.gsn e.info)), retired := [], filled := true }
  else { st := s.declineEntry e, retired := [], filled := false }

/-- R68, R69: the outcome is applied to the frame's entry, if it has one. -/
def State.applyOutcome (s : State) (stands : Bool) : Outcome :=
  let hasEntry := match s.conf.decision with
    | some d => d.hasEntry
    | none => false
  match (if hasEntry then s.conf.entries.find? (fun e => !e.isConfirmed) else none) with
  | none => { st := s, retired := [], filled := false }
  | some e => if stands then s.confirmed e else { st := s.voidPending, retired := [], filled := false }

/-- R74: the objection budget after a window. -/
def nextBudget (budget : Nat) (d : Decision) (cls : Observed) : Nat :=
  match d with
  | .object .content => min 16 (budget + 1)
  | .object .stale => budget
  | .object .full => budget
  | .noObjection => if cls = .none then 0 else budget
  | .addressedElsewhere => if cls = .none then 0 else budget

/-- R74: the budget is counted in SYNCING and MEMBER, and the decision record is made absent. -/
def State.countBudget (s : State) (cls : Observed) : State :=
  match s.conf.decision with
  | none => s
  | some d =>
    s.setConf { s.conf with
      budget := if s.inGroup then nextBudget s.conf.budget d.decision cls else s.conf.budget, decision := none }

/-! ## The result of an own frame (R98) -/

/-- R102: the FOUND's result. -/
def Batch.foundResult (b : Batch) (frame : FrameBody) (stands : Bool) : Batch :=
  if b.st.mem.st ≠ .founding then b
  else if stands then
    (b.on fun s => (s.setDir s.dir.found).postAll (lostNotices s.dir.gaps)).enterGroup
  else b.on fun s => s.offer .membership frame

/-- R104: the JOIN's result. -/
def Batch.joinResult (b : Batch) (frame : FrameBody) (stands : Bool) : Batch :=
  if b.st.mem.st ≠ .joining then b
  else if !stands then b.on fun s => s.offer .membership frame
  else if b.st.conf.drain then b.on fun s => s.setMem { s.mem with joinOwed := true }
  else b.enterGroup

/-- R107: a voided PRESENCE is offered again with fresh values. -/
def State.presenceResult (s : State) (stands : Bool) : State :=
  if !stands && s.inGroup then s.offer .membership s.presenceBody else s

/-- The result reaches the membership unit as the sender. -/
def Batch.memberResult (b : Batch) (frame : FrameBody) (stands : Bool) : Batch :=
  match frame with
  | .found _ => b.foundResult frame stands
  | .join _ => b.joinResult frame stands
  | .leave _ => b.leaveResult stands
  | .presence .. => b.on fun s => s.presenceResult stands
  | _ => b

/-- R107: an own frame of any kind has been confirmed: the presence timer restarts, an unsent PRESENCE is withdrawn. -/
def State.ownConfirmed (s : State) : State :=
  if s.inGroup then
    let s := s.setMem { s.mem with presence := some (s.now + s.heartbeat) }
    if s.sel.offersPresence then s.unoffer .membership else s
  else s

/-- R94: a drop that waited for the head's window. -/
def State.finishDeparture (s : State) : State := if s.out.departing then s.dropAll .departed else s

/-- R98, R107: an own frame observed NONE is reported as confirmed, then the result of the frame in flight is delivered to its
sender, so that a PRESENCE with a readback failure is offered again even where NONE was observed (notes/assumptions/50.md). A
readback failure makes a FULL no reason for the responder's backoff (R137, notes/assumptions/42.md). -/
def Batch.deliver (b : Batch) (cls : Observed) (readback : Bool) : Batch :=
  match b.st.sel.inFlight with
  | none => b
  | some f =>
    let b := b.on fun s => s.setSel { s.sel with inFlight := none }
    let b := if cls = .none then b.on State.ownConfirmed else b
    let stands := decide (cls = .none) && !readback
    if f.discard then b
    else match f.sender with
      | .sweep => if stands then b.on fun s => s.setSwp { s.swp with licence := true } else b
      | .membership => b.memberResult f.body stands
      | .requester => b.on fun s => s.fetchResult stands
      | .responder => b.on fun s => s.respResult stands (cls.isFull && !readback)
      | .outbound => b.on fun s => (s.recordResult cls readback).finishDeparture

/-! ## The handover of a peer's frame (R56, R57) -/

/-- R10, R108: what a PRESENCE does beside the peer entry. -/
def State.presenceHeard (s : State) (k : Station) (p : Nat) (check : Check) : State × List Nat :=
  let s := s.checkDivergence k p check
  let c := s.dir.presence p
  (s.journal c, c.retired)

/-- R56: a LEAVE ends what the catch-up unit does with that peer. -/
def Batch.peerLeft (b : Batch) (k : Station) : Batch :=
  let b := b.on fun s =>
    match s.cat.responder with
    | some r => if r.requester = k then s.endResponder else s
    | none => s
  match b.st.cat.requester with
  | some c =>
    match c.phase with
    | .awaiting r _ _ => if r = k ∧ c.timeoutHeld = false then b.timeOut else b
    | _ => b
  | none => b

/-- R56: a sound frame of a peer, confirmed, at a station in SYNCING or MEMBER. `filled` is the directory's answer to the
REPLAY in it. -/
def Batch.handMember (b : Batch) (k : Station) (body : FrameBody) (filled : Bool) (retired : List Nat) : Batch :=
  let b := b.on fun s => s.peerHeard k body
  let here := b.st.straps.station
  match body with
  | .presence p _ check _ =>
    let (s, more) := b.st.presenceHeard k p check
    (b.on fun _ => s.applyRetired more).recheck.presenceHeard
  | .leave _ => b.peerLeft k
  | .fetch r first count => if r = here then b.on fun s => s.takeFetch k first count else b
  | .gone r first count => if r = here then b.goneHeard k first count else b
  | .replay r g _ _ _ => if r = here then b.replayHeard k g filled else b
  | .record .. => b.on fun s => s.applyRetired retired
  | .quiet _ => b
  | .found _ => b
  | .join _ => b

/-- R56, R57, R58: what a confirmed frame in the window record is handed to, by the station state. -/
def Batch.handOn (b : Batch) (c : Option Classified) (filled : Bool) (retired : List Nat) : Batch :=
  match c with
  | some (.sound k body _ _) =>
    if b.st.inGroup then b.handMember k body filled retired
    else if b.st.entering then b.groupHeard k body
    else b
  | _ => b

/-! ## The window end (R38, R39, R42, R59, R75) -/

/-- R38, R39: the receive state after a window: SEPARATION, or FAULT_WAIT while a data-line fault stands
(notes/assumptions/27.md); an early start has changed it already. R39 does not say whether recessive time that has passed in
the window counts toward the 64 bt: the model's choice is that the count starts anew at the entry to FAULT_WAIT
(notes/assumptions/46.md). -/
def State.afterWindow (s : State) : State :=
  if s.bus.rx ≠ .window ∨ s.bus.windows.any (fun w => w.opened) then s
  else if s.bus.dataFault then (s.setRx .faultWait).setBus { s.bus with rx := .faultWait, recessiveSince := s.now }
  else (s.setRx .separation).setBus { s.bus with rx := .separation, sepEnd := s.now + s.bt 4 }

/-- R42: a switching that waited for the own frame's window is made. -/
def State.finishSwitch (s : State) : State :=
  match s.bus.offTarget with
  | some target => if s.ownUnderWay then s else s.retune target
  | none => s

/-- R88 to R92, R106, R121, R129 to R133, R136: what the unit's work of this window leaves to be done; `before` is the
frontier before it. The DROPPED notices of R92 are posted before the notices the batch owes (notes/assumptions/21.md). -/
def Batch.afterOutcome (b : Batch) (before : Nat) : Batch :=
  let b := b.recheck.on fun s =>
    let s := s.respSettle
    (if before < s.dir.frontier then s.endStaleWait else s).spendNumbers
  b.followGaps

/-- The window of a frame that was classified: the outcome, the budget, the own result or the handover. -/
def State.closeJudged (s : State) (w : WindowRun) (cls : Observed) : Batch :=
  let before := s.dir.frontier
  let classified := s.filter.window
  let s := s.setFilter { s.filter with window := none }
  let o := s.applyOutcome (decide (cls = .none))
  let b := (o.st.countBudget cls).batch
  if b.st.inGroup ∧ 16 ≤ b.st.conf.budget then
    (if w.own then b.deliver cls w.readback else b).enterFault
  else
    let b := if w.own then (b.deliver cls w.readback).on fun s => s.applyRetired o.retired
      else if cls = .none then b.handOn classified o.filled o.retired
      else b
    b.afterOutcome before

/-- R59: the window of an overlapping frame: only an own frame's result is delivered. -/
def State.closeOverlapping (s : State) (w : WindowRun) (cls : Observed) : Batch :=
  if w.own then (s.batch.deliver cls w.readback).afterOutcome s.dir.frontier else s.batch

end Sys2Proof.Machine
end

