-- ==== Sys2Proof/Machine/Timers.lean ====
section
/-! DEFINITION. The meanings of the timers of the membership unit, of the outbound head and of the catch-up unit, and of
DRAIN_COMPLETE (R77, R90, R91, R101, R104, R105, R107, R112, R113, R117, R130, R137). -/

namespace Sys2Proof.Machine

/-- The end of an event that may have changed gaps or peers: contexts, gap reports, owed notices, requests and offers. -/
def Batch.finish (b : Batch) : State := b.recheck.followGaps.flush.settle

/-! ## Membership -/

/-- LISTEN_TIMER_EXPIRY (R101, R102). -/
def execListenTimerExpiry (s : State) : Host.Outcome State Fault Refusal :=
  s.act fun s =>
    match s.mem.st, s.mem.listenTimer with
    | .listening, some t =>
      let s := s.at t
      let s := (s.setMem { s.mem with listenTimer := none }).enter .founding
      (s.reoffer .membership (.found s.dir.foundingFrontier)).settle
    | _, _ => s

/-- JOIN_WAIT_EXPIRY (R105). -/
def execJoinWaitExpiry (s : State) : Host.Outcome State Fault Refusal :=
  s.act fun s =>
    match s.mem.st, s.mem.joinWait with
    | .joining, some t => ((s.at t).enterListening).settle
    | _, _ => s

/-- The LEAVE is the frame in flight (R117). -/
def State.leaveFlies (s : State) : Bool :=
  match s.sel.inFlight with
  | some f => f.body.isLeave
  | none => false

/-- LEAVE_TIMER_EXPIRY (R117). -/
def execLeaveTimerExpiry (s : State) : Host.Outcome State Fault Refusal :=
  s.act fun s =>
    match s.mem.st, s.mem.leave with
    | .leaving, some l =>
      match l.timer with
      | some t =>
        let s := s.at t
        if s.leaveFlies then s.setMem { s.mem with leave := some { l with timer := none, expired := true } }
        else s.batch.endGroupPart.flush.settle
      | none => s
    | _, _ => s

/-- HEARTBEAT_TICK (R112): ticks in LEAVING visit nothing (notes/assumptions/4.md). R112 gives no order of the visits: the
model's choice, and so the order of several PEER_CHANGE(SILENT) of one tick, is by rising station number
(notes/assumptions/48.md). -/
def execHeartbeatTick (s : State) : Host.Outcome State Fault Refusal :=
  s.act fun s =>
    match s.mem.tick with
    | some t =>
      let s := s.at t
      let s := s.setMem { s.mem with tick := some (t + s.heartbeat) }
      let s := if s.entering || s.inGroup then s.peerNumbers.foldl State.visit s else s
      s.batch.finish
    | none => s

/-- R112: a missed count of 3 makes the entry SILENT. -/
def State.silence (s : State) (k : Station) : State :=
  let p := s.mem.peer k
  (s.setMem (s.mem.setPeer k { p with missed := 3, status := .silent, quiet := none })).post (.peerChange k .silent)

/-- PEER_SILENT (notes/assumptions/4.md). -/
def execPeerSilent (station : Station) (s : State) : Host.Outcome State Fault Refusal :=
  s.act fun s =>
    let p := s.mem.peer station
    if station ≠ s.straps.station ∧ p.status = .active ∧ 3 ≤ p.missed then (s.silence station).batch.finish else s

/-- PRESENCE_TIMER_EXPIRY (R107): the timer is not restarted by its expiry. -/
def execPresenceTimerExpiry (s : State) : Host.Outcome State Fault Refusal :=
  s.act fun s =>
    match s.mem.presence with
    | some t =>
      if s.inGroup then
        let s := s.at t
        ((s.setMem { s.mem with presence := none }).offer .membership s.presenceBody).settle
      else s
    | none => s

/-- QUIET_MARK_EXPIRY (R113, R85). -/
def execQuietMarkExpiry (station : Station) (s : State) : Host.Outcome State Fault Refusal :=
  s.act fun s =>
    let p := s.mem.peer station
    match p.quiet with
    | some t =>
      let s := s.at t
      (s.setMem (s.mem.setPeer station { p with quiet := none })).settleSend
    | none => s

/-! ## The outbound head -/

/-- STALE_WAIT_END (R90). -/
def execStaleWaitEnd (s : State) : Host.Outcome State Fault Refusal :=
  s.act fun s =>
    match s.out.entries with
    | h :: _ =>
      match h.state with
      | .staleWait t => ((s.at t).setHead { h with state := .waiting }).settleSend
      | _ => s
    | [] => s

/-- BACKOFF_END (R91). -/
def execBackoffEnd (s : State) : Host.Outcome State Fault Refusal :=
  s.act fun s =>
    match s.out.entries with
    | h :: _ =>
      match h.state with
      | .backoff t => ((s.at t).setHead { h with state := .waiting }).settleSend
      | _ => s
    | [] => s

/-! ## Catch-up -/

/-- The deadline of the requester context in AWAITING; it does not run in LEAVING (R119). -/
def State.deadline (s : State) : Option Nat :=
  match s.cat.requester with
  | some c =>
    match c.phase with
    | .awaiting _ _ dl => if s.inGroup then dl else none
    | _ => none
  | none => none

/-- CATCH_UP_DEADLINE (R130). -/
def execCatchUpDeadline (s : State) : Host.Outcome State Fault Refusal :=
  s.act fun s =>
    match s.deadline with
    | some t => (s.at t).batch.timeOut.finish
    | none => s

/-- RESPONDER_BACKOFF_END (R137); in LEAVING no new offer is made (R119). -/
def execResponderBackoffEnd (s : State) : Host.Outcome State Fault Refusal :=
  s.act fun s =>
    match s.cat.responder with
    | some r =>
      match r.phase with
      | .backoff frame t => if s.inGroup then ((s.at t).offerResponse r frame).settle else s
      | _ => s
    | none => s

/-! ## The drain -/

/-- DRAIN_COMPLETE (R77). -/
def execDrainComplete (s : State) : Host.Outcome State Fault Refusal :=
  s.act fun s =>
    if s.conf.drain = true ∧ s.conf.entries = [] ∧ s.conf.write = none then
      (s.setConf { s.conf with drain := false }).batch.drained.finish
    else s

end Sys2Proof.Machine
end

