-- ==== Sys2Proof/Machine/ArrayPort.lean ====
section
/-! DEFINITION. The meanings of the array port's writes and reads (R70 to R73, R135, R136, R141, R142, R174): grants and
completions of the commit writer, the catch-up responder and the local READ. -/

namespace Sys2Proof.Machine

/-! ## The commit writer -/

/-- R71: the entry that the writer chooses at its grant. -/
def State.chosenEntry (s : State) : Option PendEntry :=
  match s.conf.entries.find? PendEntry.isConfirmed with
  | some e => some e
  | none => s.conf.entries.find? s.eligible

/-- R71: the directory's test of the slot at the grant. -/
def State.slotTest (s : State) (e : PendEntry) : Bool :=
  if e.isConfirmed then (s.dir.fillingInfo e.gsn).isSome
  else if e.live then (s.dir.slotAt (slotOf e.gsn)).isNone
  else s.dir.holdsGap e.gsn

/-- The entries after an early write of one has been granted: its tried mark is set (R66, R71). -/
def State.tryEntry (s : State) (e : PendEntry) : State :=
  if e.isConfirmed then s
  else s.setEntries (replaceEntry e.gsn (e.withStatus (.awaitingWindow true)) s.conf.entries)

/-- R71: the grant, for the chosen entry. -/
def State.grantWrite (s : State) (e : PendEntry) : State :=
  if s.slotTest e then
    let s := (s.tryEntry e).takeGrant .writer .commitWrite none
    let w : CurrentWrite :=
      { gsn := e.gsn, payload := e.payload, grantedEarly := !e.isConfirmed, early := !e.isConfirmed, entryPresent := true }
    s.setConf { s.conf with write := some w }
  else
    let s := s.giveUpGrant .writer
    if e.isConfirmed then s.setEntries (removeEntry e.gsn s.conf.entries) else s.tryEntry e

/-- COMMIT_WRITE_GRANT. -/
def execCommitWriteGrant (s : State) : Host.Outcome State Fault Refusal :=
  s.act fun s =>
    match s.chosenEntry with
    | some e => if s.grantable .writer && s.conf.write.isNone then (s.grantWrite e).settle else s
    | none => s

/-- The payload has reached its cell, the port is free, no write is current. -/
def State.endWrite (s : State) (w : CurrentWrite) : State :=
  let s := (s.writeCell w.gsn w.payload).freePort
  s.setConf { s.conf with write := none }

/-- R15, R72: the slot of a late write. -/
def State.commitSlot (s : State) (e : PendEntry) : State :=
  match s.dir.fillingInfo e.gsn with
  | some i => (s.setDir (s.dir.put (.committed e.gsn i))).postCommitted e
  | none => s

/-- R72: the entry of a late write. -/
def State.finishLate (s : State) (w : CurrentWrite) : State :=
  match (if w.entryPresent then s.conf.entries.find? fun e => e.gsn == w.gsn else none) with
  | some e =>
    let s := s.commitSlot e
    s.setEntries (removeEntry e.gsn s.conf.entries)
  | none => s

/-- R73: an early write whose entry still awaits its window, or is gone. Only a REPLAY's slot changes, and only then do gap
count and requester context follow. -/
def State.finishEarly (s : State) (w : CurrentWrite) : State :=
  match (if w.entryPresent then s.conf.entries.find? fun e => e.gsn == w.gsn else none) with
  | some e =>
    let written := replaceEntry e.gsn (e.withStatus .writtenEarly) s.conf.entries
    if e.live then (s.setEntries written).settle
    else if s.dir.holdsGap e.gsn then
      ((s.setDir (s.dir.put (.tentative e.gsn e.info))).setEntries written).batch.finish
    else s.settle
  | none => s.settle

/-- The current write, while the port is held for it. -/
def State.writing (s : State) : Option CurrentWrite := if s.portOp = some .commitWrite then s.conf.write else none

/-- R72: a late write, or a write that counts as one, completes. -/
def State.completeLate (s : State) (w : CurrentWrite) : State := (((s.endWrite w).finishLate w).respSettle).settle

/-- COMMIT_WRITE_COMPLETE: a write that counts as late (R72). -/
def execCommitWriteComplete (s : State) : Host.Outcome State Fault Refusal :=
  s.act fun s =>
    match s.writing with
    | some w => if w.early then s else s.completeLate w
    | none => s

/-- EARLY_WRITE_COMPLETE: a write granted as early (R73). -/
def execEarlyWriteComplete (s : State) : Host.Outcome State Fault Refusal :=
  s.act fun s =>
    match s.writing with
    | some w =>
      if !w.grantedEarly then s
      else if w.early then (s.endWrite w).finishEarly w
      else s.completeLate w
    | none => s

/-! ## The responder's read -/

/-- R136: the responder's read is granted and judged. -/
def State.judgeReplay (s : State) (r : ResponderCtx) : State :=
  match s.dir.lookup r.next with
  | .committed i =>
    s.takeGrant .responder
      (.replayRead (.replay r.requester r.next i.origin i.tag (s.readCell r.next i)) true) none
  | .filling => (s.giveUpGrant .responder).setResponder (some { r with phase := .settling })
  | .tentative _ => (s.giveUpGrant .responder).setResponder (some { r with phase := .settling })
  | _ => (s.giveUpGrant .responder).offerResponse r (s.dir.goneFrom r.requester r.next r.last)

/-- REPLAY_READ_GRANT. -/
def execReplayReadGrant (s : State) : Host.Outcome State Fault Refusal :=
  s.act fun s =>
    match s.cat.responder with
    | some r => if r.phase = .reading none ∧ s.grantable .responder = true then (s.judgeReplay r).settle else s
    | none => s

/-- R136, R119: the result of the read: the REPLAY is offered, or kept in LEAVING, or discarded. -/
def State.takeReplay (s : State) (frame : FrameBody) (wanted : Bool) : State :=
  match s.cat.responder with
  | some r =>
    if wanted = true ∧ r.phase = .reading none then
      if s.inGroup then s.offerResponse r frame
      else s.setResponder (some { r with phase := .reading (some frame) })
    else s
  | none => s

/-- REPLAY_READ_COMPLETE. -/
def execReplayReadComplete (s : State) : Host.Outcome State Fault Refusal :=
  s.act fun s =>
    match s.portOp with
    | some (.replayRead frame wanted) => ((s.freePort).takeReplay frame wanted).settle
    | _ => s

/-! ## The local READ -/

/-- R174: the answer of a class that transfers no data, or the DATA answer. -/
def State.readAnswer (s : State) (g : Nat) : Answer :=
  match s.dir.lookup g with
  | .below => .noData .expired g
  | .above => .noData .notYet g
  | .gap => .noData .gap g
  | .lost => .noData .lost g
  | .filling => .noData .filling g
  | .tentative i => .data g i.origin i.tag true (s.readCell g i)
  | .committed i => .data g i.origin i.tag false (s.readCell g i)

/-- The answer carries a payload. -/
def Answer.isData : Answer → Bool
  | .data .. => true
  | _ => false

/-- LOCAL_READ_GRANT. -/
def execLocalReadGrant (s : State) : Host.Outcome State Fault Refusal :=
  s.act fun s =>
    match s.port.slot with
    | some (.read g) =>
      if s.grantable .localPort then
        let a := s.readAnswer g
        (if a.isData then s.takeGrant .localPort (.localRead a) none
        else (s.giveUpGrant .localPort).answer a).settle
      else s
    | _ => s

/-- LOCAL_READ_COMPLETE. -/
def execLocalReadComplete (s : State) : Host.Outcome State Fault Refusal :=
  s.act fun s =>
    match s.portOp with
    | some (.localRead a) => ((s.freePort).answer a).settle
    | _ => s

end Sys2Proof.Machine
end

