-- ==== Sys2Proof/Machine/Line.lean ====
section
/-! DEFINITION. The meanings of the record bus events (02_the_record_bus.md, R86, R87, R97, R98): SYNC_WAIT_END to
OBJECTION_LINE_RECOVERY. -/

namespace Sys2Proof.Machine

/-! ## Idle and frame starts -/

/-- SYNC_WAIT_END (R29): not before the line has been recessive for 40 bt. -/
def execSyncWaitEnd (s : State) : Host.Outcome State Fault Refusal :=
  s.act fun s =>
    if s.bus.rx = .syncWait then ((s.at (s.bus.recessiveSince + s.bt 40)).reachIdle).settle else s

/-- A frame begins: a new receive record (R30, R44). -/
def State.beginFrame (s : State) (own : Bool) : State :=
  let s := s.setRx .frame
  (s.setBus { s.bus with frameStart := s.now, objWatch := true }).setFilter
    { s.filter with receive := some { bytes := [], framing := [], truncated := false, own := own, readback := false } }

/-- R30: in these states a change of the data line to dominant begins a frame. -/
def RxState.takesStart : RxState → Bool
  | .idle => true
  | .preWindow => true
  | .window => true
  | .separation => true
  | .off => false
  | .syncWait => false
  | .frame => false
  | .faultWait => false
  | .stopped => false

/-- R30, R97: another station's frame-start bit ends a choice and begins a frame; in SYNC_WAIT and FAULT_WAIT it is a dominant
bit, and the recessive count starts at its end (R29, R39, notes/assumptions/38.md). While the data-line fault mark is set, in the
rest of a window or separation, R30 would take the change as an early start and R39 leads to FAULT_WAIT: the model's choice is
that it begins no frame (notes/assumptions/53.md). -/
def State.frameStarts (s : State) : State :=
  if s.bus.rx = .syncWait ∨ s.bus.rx = .faultWait then s.setBus { s.bus with recessiveSince := s.now + s.bt 1 }
  else if s.bus.rx.takesStart && s.bus.steady && !s.bus.dataFault then
    ((s.setSel { s.sel with choice := none }).beginFrame false).settle
  else s

/-- FRAME_START. -/
def execFrameStart (s : State) : Host.Outcome State Fault Refusal := s.act State.frameStarts

/-- R86: the head becomes IN_FLIGHT, stamped with the frontier; the frame in flight is its RECORD. -/
def State.startRecord (s : State) : State :=
  match s.out.entries with
  | [] => s
  | h :: _ =>
    let g := s.dir.frontier
    let s := s.setHead { h with state := .inFlight g }
    s.setSel { s.sel with record := false, choice := none,
                          inFlight := some { sender := .outbound, body := .record g h.tag h.payload, discard := false } }

/-- R97: the choice becomes the frame in flight and its offer is consumed. -/
def State.startChoice (s : State) (who : Sender) : State :=
  match who, s.sel.offer who with
  | .outbound, _ => s.startRecord
  | _, some body =>
    s.setSel { s.sel.setOffer who none with
      choice := none, inFlight := some { sender := who, body := body, discard := false } }
  | _, none => s

/-- R30, R97: the chosen frame may start. -/
def State.mayStart (s : State) : Bool :=
  s.bus.rx == .idle && s.bus.steady && !s.bus.inhibit && s.sel.inFlight.isNone

/-- OWN_FRAME_START. -/
def execOwnFrameStart (s : State) : Host.Outcome State Fault Refusal :=
  s.act fun s =>
    match s.sel.choice with
    | none => s
    | some who =>
      if s.mayStart && s.sel.offers s.mem.st who then ((s.startChoice who).beginFrame true).settle else s

/-! ## Arbitration and readback (R31, R32, R87, R98) -/

/-- The receive record of the frame that this station is still sending. -/
def State.sending (s : State) : Option ReceiveRecord :=
  match s.filter.receive with
  | some r => if s.bus.rx = .frame ∧ r.own = true ∧ r.readback = false then some r else none
  | none => none

/-- R98: the offer of a lost frame returns to the offers unchanged; a RECORD's stamp is discarded (R87). -/
def State.returnOffer (s : State) (f : InFlight) : State :=
  let s := s.setSel { s.sel with inFlight := none }
  if f.discard then s
  else match f.sender, s.out.entries with
    | .outbound, h :: _ => s.setHead { h with state := .waiting }
    | .outbound, [] => s
    | who, _ => (s.offer who f.body).keepPresence

/-- R117: a leave timer that has expired leaves no other attempt (notes/assumptions/28.md). -/
def Batch.leaveLost (b : Batch) : Batch :=
  match b.st.mem.leave with
  | some l => if l.expired then b.endGroupPart else b
  | none => b

/-- ARBITRATION_LOST. A departure that waited for the frame's window waits no more (notes/assumptions/34.md); a returned QUIET that
is no longer due is withdrawn (notes/assumptions/43.md). -/
def execArbitrationLost (s : State) : Host.Outcome State Fault Refusal :=
  s.act fun s =>
    match s.sending, s.sel.inFlight with
    | some r, some f =>
      let s := (s.returnOffer f).setFilter { s.filter with receive := some { r with own := false } }
      let s := s.setMem { s.mem with departWait := 0 }
      (s.batch.leaveLost.recheck.followGaps.flush).settle
    | _, _ => s

/-- READBACK_FAILURE. The own mark stands from the frame start, so a failure inside the arbitration byte keeps it
(notes/assumptions/41.md). -/
def execReadbackFailure (s : State) : Host.Outcome State Fault Refusal :=
  s.act fun s =>
    match s.sending with
    | some r => s.setFilter { s.filter with receive := some { r with readback := true } }
    | none => s

/-- R41: the station checks the sender's number of a frame it receives. -/
def State.checksNumber (s : State) (r : ReceiveRecord) : Bool :=
  s.onBus && s.bus.steady && s.bus.rx == .frame && !r.own

/-- DUPLICATE_STATION. -/
def execDuplicateStation (s : State) : Host.Outcome State Fault Refusal :=
  s.act fun s =>
    match s.filter.receive with
    | some r => if s.checksNumber r then s.duplicateFound.settle else s
    | none => s

/-! ## Frame ends (R33 to R35) -/

/-- The end of the frame being received, from its receive record at instant `due`; a frame that bears this station's
number without being its frame is never handed over (R41, notes/assumptions/25.md). -/
def State.frameEnds (s : State) (r : ReceiveRecord) (due : Nat) : State :=
  let s := s.at due
  if s.checksNumber r && r.carriesNumber s.straps.station then s.duplicateFound.settle else (s.endFrame r).settle

/-- FRAME_END: 1 + 10 bt for each byte after the frame-start bit (R33); the framing of each byte is checked (R27). -/
def execFrameEnd (bytes : List Byte) (framing : List FramingLevels) (s : State) : Host.Outcome State Fault Refusal :=
  s.act fun s =>
    match s.filter.receive with
    | some r =>
      if s.bus.rx = .frame then
        let r := s.ended r bytes (framingErrors framing) false
        s.frameEnds r (s.bus.frameStart + s.bt (1 + 10 * r.bytes.length))
      else s
    | none => s

/-- FRAME_TRUNCATED: not before a 12-bt recessive run can have ended behind the bytes that are complete (R34); their
framing is checked (R27). -/
def execFrameTruncated (bytes : List Byte) (framing : List FramingLevels) (s : State) : Host.Outcome State Fault Refusal :=
  s.act fun s =>
    match s.filter.receive with
    | some r =>
      if s.bus.rx = .frame then
        let r := s.ended r bytes (framingErrors framing) true
        s.frameEnds r (s.bus.frameStart + s.bt (truncationLength bytes framing))
      else s
    | none => s

/-! ## The objection window (R36 to R38) -/

/-- The first window that has not opened, with a function that puts another in its place. -/
def unopened : List WindowRun → Option WindowRun
  | [] => none
  | w :: rest => if w.opened then unopened rest else some w

/-- The first window that has not opened is replaced. -/
def replaceUnopened (v : WindowRun) : List WindowRun → List WindowRun
  | [] => []
  | w :: rest => if w.opened then w :: replaceUnopened v rest else v :: rest

/-- R36: the pull of a window that opens now. -/
def State.pullFor (s : State) (w : WindowRun) : Option Pull :=
  if w.pulled = 0 then s.bus.pull
  else match s.conf.objection with
    | some k => some { cls := k, ends := s.now + s.bt k.width }
    | none => s.bus.pull

/-- R36: the window opens and lasts 32 bt. -/
def State.openWindow (s : State) (w : WindowRun) : State :=
  let s := s.at w.due
  let s := if s.bus.rx = .preWindow then s.setRx .window else s
  s.setBus { s.bus with
    windows := replaceUnopened { w with opened := true, due := s.now + s.bt 32 } s.bus.windows, pull := s.pullFor w }

/-- WINDOW_OPEN. -/
def execWindowOpen (s : State) : Host.Outcome State Fault Refusal :=
  s.act fun s =>
    match unopened s.bus.windows with
    | some w => (s.openWindow w).settle
    | none => s

/-- OBJECTION_PULL_END. -/
def execObjectionPullEnd (s : State) : Host.Outcome State Fault Refusal :=
  s.act fun s =>
    match s.bus.pull with
    | some p =>
      let s := s.at p.ends
      s.setBus { s.bus with pull := none }
    | none => s

/-- R37, R40, R59: the low run in a window is an objection-line fault: OVERRUN, or any low in an overlapping window. -/
def WindowRun.faultyRun (w : WindowRun) (lowRun : Nat) : Bool := decide (32 < lowRun) || (w.overlapping && decide (0 < lowRun))

/-- The class that every participant decodes: the widest of the other stations' run and this station's own pull (R37,
notes/assumptions/6.md). -/
def WindowRun.observed (w : WindowRun) (lowRun : Nat) : Observed := observedOf (max lowRun w.pulled)

/-- R36, R37, R38, R42: the window closes; the LINE_FAULT of an OVERRUN is posted before the outcome's notices
(notes/assumptions/21.md). A departure waits for one window less (R116). -/
def State.closeWindow (s : State) (w : WindowRun) (rest : List WindowRun) (lowRun : Nat) : State :=
  let s := s.at w.due
  let s := s.setMem { s.mem with departWait := s.mem.departWait - 1 }
  let s := (s.setBus { s.bus with
    windows := rest, pull := s.bus.pull.filter fun p => decide (s.now < p.ends) }).afterWindow
  let s := if w.faultyRun lowRun then s.objectionFault else s
  let cls := w.observed lowRun
  let b := if w.overlapping then s.closeOverlapping w cls else s.closeJudged w cls
  b.flush.finishSwitch.settle

/-- WINDOW_END. -/
def execWindowEnd (lowRun : Nat) (s : State) : Host.Outcome State Fault Refusal :=
  s.act fun s =>
    match s.bus.windows with
    | w :: rest => if w.opened then s.closeWindow w rest lowRun else s
    | [] => s

/-- SEPARATION_END (R38); a data-line fault found meanwhile leads to FAULT_WAIT (R39), whose count of recessive time starts anew
at the entry (the model's choice, notes/assumptions/46.md). -/
def execSeparationEnd (s : State) : Host.Outcome State Fault Refusal :=
  s.act fun s =>
    if s.bus.rx = .separation then
      let s := s.at s.bus.sepEnd
      (if s.bus.dataFault then
        let s := s.setRx .faultWait
        s.setBus { s.bus with recessiveSince := s.now }
      else s.setRx .idle).settle
    else s

/-! ## Line faults (R39, R40) -/

/-- R39: the states from which a dominant run is counted. -/
def RxState.watchesData : RxState → Bool
  | .preWindow => true
  | .window => true
  | .separation => true
  | .idle => true
  | .syncWait => true
  | .off => false
  | .frame => false
  | .faultWait => false
  | .stopped => false

/-- R39: a data-line fault is found. -/
def State.dataLineFault (s : State) : State :=
  let s := ((s.setBus { s.bus with dataFault := true, inhibit := true }).post (.lineFault .data)).flagFault
  if s.bus.rx = .idle ∨ s.bus.rx = .syncWait then
    let s := s.setRx .faultWait
    s.setBus { s.bus with recessiveSince := s.now }
  else s

/-- DATA_LINE_FAULT. -/
def execDataLineFault (s : State) : Host.Outcome State Fault Refusal :=
  s.act fun s =>
    if s.bus.rx.watchesData && s.bus.steady && !s.bus.dataFault then s.dataLineFault.settle else s

/-- FAULT_WAIT_END (R39, R44): not before the line has been recessive for 64 bt. A frame cut off on the line, its window and its
separation end within 12 + 2 + 32 + 4 bt of recessive line, so the station never comes out in the middle of a frame (R35), and
the watch of the objection line stands as it stood (R40, notes/assumptions/26.md). -/
def execFaultWaitEnd (s : State) : Host.Outcome State Fault Refusal :=
  s.act fun s =>
    if s.bus.rx = .faultWait then
      let s := s.at (s.bus.recessiveSince + s.bt 64)
      let s := (s.setBus { s.bus with dataFault := false, inhibit := false }).setFilter { receive := none, window := none }
      s.reachIdle.settle
    else s

/-- R40, R29: the states in which a low of the objection line is a fault; in WINDOW it is a late low (R37). -/
def Bus.watchesObjection (b : Bus) : Bool :=
  match b.rx with
  | .frame => true
  | .preWindow => true
  | .window => true
  | .separation => true
  | .idle => b.objWatch
  | .off => false
  | .syncWait => false
  | .faultWait => false
  | .stopped => false

/-- OBJECTION_LINE_FAULT; an interface that finishes the window of its own frame watches it like any other (R40, R42). -/
def execObjectionLineFault (s : State) : Host.Outcome State Fault Refusal :=
  s.act fun s => if s.bus.watchesObjection then s.objectionFault else s

/-- OBJECTION_LINE_RECOVERY (R40); an interface that is off or STOPPED keeps its marks (R42). -/
def execObjectionLineRecovery (s : State) : Host.Outcome State Fault Refusal :=
  s.act fun s => if s.bus.on then s.setBus { s.bus with objFault := false } else s

end Sys2Proof.Machine
end

