-- ==== Sys2Proof/Machine/Port.lean ====
section
/-! DEFINITION. The meanings of the local port's transactions (10_the_local_port.md, R158, R163): START to COLLECT, and the
taking of a deferred command. -/

namespace Sys2Proof.Machine

/-! ## START (R172, R184) -/

/-- The six parameters, when each is in its range. -/
def startParams (group heartbeat retryLimit commitMode : Byte) (historyDepth : BitVec 16) (holdAbort : Byte) :
    Option StartParams :=
  if h : heartbeat.toNat < 4 then
    if 1 ≤ retryLimit.toNat ∧ retryLimit.toNat ≤ 15 ∧ commitMode.toNat ≤ 1 ∧ historyDepth.toNat ≤ 4095 ∧
        holdAbort.toNat ≤ 1 then
      some { group := group, heartbeat := ⟨heartbeat.toNat, h⟩, retryLimit := retryLimit.toNat,
             commitMode := if commitMode.toNat = 1 then .early else .late, historyDepth := historyDepth.toNat,
             holdAbort := holdAbort.toNat = 1 }
    else none
  else none

/-- A rate or slice strap reads the illegal code 3 (R26, R143). -/
def Straps.illegal (st : Straps) : Bool := st.rate == 3 || st.slice == 3

/-- R172: START is taken. -/
def State.takeStart (s : State) (p : Option StartParams) : State :=
  if s.mem.st ≠ .unset then s.answer (.refusedState .start)
  else match p with
    | none => s.answer (.paramStart s.straps)
    | some v =>
      if s.straps.illegal then s.answer (.paramStart s.straps)
      else (((s.setParams (some v)).enterListening).answer (.okStart s.straps)).settle

/-- START. -/
def execStart (group heartbeat retryLimit commitMode : Byte) (historyDepth : BitVec 16) (holdAbort : Byte) (s : State) :
    Host.Outcome State Fault Refusal :=
  s.act fun s => s.transaction 7 fun s =>
    s.takeStart (startParams group heartbeat retryLimit commitMode historyDepth holdAbort)

/-! ## JOIN, SUBMIT, READ -/

/-- JOIN (R173, R118). -/
def execJoin (s : State) : Host.Outcome State Fault Refusal :=
  s.act fun s => s.transaction 0 fun s =>
    if s.mem.st = .detached then ((s.enterListening).answer (.ok .join)).settle else s.answer (.refusedState .join)

/-- The tag counter after an acceptance (R83). -/
def nextTag (t : Nat) : Nat := if t = 65535 then 1 else t + 1

/-- An entry as SUBMIT appends it (R82, R83). -/
def newEntry (tag : Nat) (payload : List Byte) : OutEntry :=
  { tag := tag, payload := payload, contentRetries := 0, busyRetries := 0, staleCount := 0, state := .waiting }

/-- R83: SUBMIT is tested and taken. -/
def State.takeSubmit (s : State) (payload : List Byte) : State :=
  if s.inGroup = false ∨ Config.gsnLimit ≤ s.dir.frontier then s.answer (.refusedState .submit)
  else if payload.length = 0 ∨ Config.payloadMax < payload.length then s.answer (.param 3)
  else if Config.outboundMax ≤ s.out.entries.length then s.answer .full
  else
    let t := s.out.tagCounter
    ((s.setOut { s.out with entries := s.out.entries ++ [newEntry t payload], tagCounter := nextTag t }).answer
      (.okTag t)).settleSend

/-- SUBMIT. -/
def execSubmit (payload : List Byte) (s : State) : Host.Outcome State Fault Refusal :=
  s.act fun s => s.transaction (1 + payload.length) fun s => s.takeSubmit payload

/-- READ (R174): the answer waits for the array port. -/
def execRead (gsn : BitVec 48) (s : State) : Host.Outcome State Fault Refusal :=
  s.act fun s => s.transaction 6 fun s =>
    if s.mem.st = .unset then s.answer (.refusedState .read)
    else if gsn = 0 then s.answer (.param 4)
    else (s.working (.read gsn.toNat)).placeRead

/-! ## STATUS, PEERS, NOTICE -/

/-- R176: the status record of the station as it stands. -/
def State.statusRecord (s : State) : StatusRecord :=
  { st := s.mem.st, frontier := s.dir.frontier, low := s.windowLow, high := s.windowHigh, gapCount := s.dir.gapCount,
    lostCount := s.dir.lostCount, balance := s.swp.balance, position := s.swp.position, cls := s.temp.cls,
    pendingOccupancy := s.conf.entries.length, outboundOccupancy := s.out.entries.length,
    noticeCount := s.port.notices.length, lostNotices := s.port.lost }

/-- STATUS. -/
def execStatus (s : State) : Host.Outcome State Fault Refusal :=
  s.act fun s => s.transaction 0 fun s => s.answer (.status s.statusRecord)

/-- R177: one entry as PEERS reports it at instant `now`; the time left is in whole microseconds (notes/assumptions/23.md). -/
def Peer.report (p : Peer) (now : Nat) : PeerReport :=
  { status := p.status, heardFrontier := p.heardFrontier, heardLow := p.heardLow, heardMember := p.heardMember,
    heardRetained := p.heardRetained, missed := p.missed, quietLeft := p.quiet.map fun t => (t - now) / us 1,
    divergence := p.divergence }

/-- PEERS. -/
def execPeers (s : State) : Host.Outcome State Fault Refusal :=
  s.act fun s => s.transaction 0 fun s => s.answer (.peers (allStations.map fun k => (s.peerView k).report s.now))

/-- R180: the oldest notice is removed, the lost-notice count reported and cleared. -/
def State.takeNotice (s : State) : State :=
  match s.port.notices with
  | [] => (s.setPort { s.port with lost := 0 }).answer (.empty s.port.lost)
  | n :: rest => (s.setPort { s.port with notices := rest, lost := 0 }).answer (.notice s.port.lost n)

/-- NOTICE. -/
def execNotice (s : State) : Host.Outcome State Fault Refusal := s.act fun s => s.transaction 0 State.takeNotice

/-! ## LEAVE, HOLD, RELEASE -/

/-- R116, R171: a LEAVE or HOLD that arrives while R116 defers it keeps the port WORKING and waits for a window's end. -/
def State.departure (s : State) (c : SlotCommand) (take : State → State) : State :=
  if s.inGroup && s.defersDeparture then (s.setMem { s.mem with departWait := s.windowsAwaited }).working c
  else (take s).settle

/-- LEAVE (R116, R118, R173). -/
def execLeave (s : State) : Host.Outcome State Fault Refusal :=
  s.act fun s => s.transaction 0 fun s => s.departure .leave State.takeLeave

/-- HOLD (R116, R158). -/
def execHold (s : State) : Host.Outcome State Fault Refusal :=
  s.act fun s => s.transaction 0 fun s => s.departure .hold State.takeHold

/-- The START parameter hold-abort (R172). -/
def State.holdAbort (s : State) : Bool :=
  match s.params with
  | some p => p.holdAbort
  | none => false

/-- R163: the internal pass is withdrawn, abandoned or left to finish, and the exit pass requested. -/
def State.requestExitPass (s : State) : State :=
  let s := s.withdraw .sweep
  let s := if s.portOp = some .internalPass ∧ s.holdAbort = true then s.freePort else s
  (s.setSwp { s.swp with holdTimer := none, passState := none }).place .sweep 2

/-- RELEASE (R163). -/
def execRelease (s : State) : Host.Outcome State Fault Refusal :=
  s.act fun s => s.transaction 0 fun s =>
    if s.mem.st = .held then (((s.enter .resuming).requestExitPass).answer (.ok .release)).settle
    else s.answer (.refusedState .release)

/-! ## Malformed commands, collection, deferred commands -/

/-- MALFORMED_COMMAND (R169, 11_formats.md 11.4). -/
def execMalformedCommand (opening : Byte) (params : List Byte) (s : State) : Host.Outcome State Fault Refusal :=
  s.act fun s => s.transaction params.length fun s =>
    s.answer (if opening = 1 then .paramStart s.straps else .param opening)

/-- R170: `n` bytes are clocked out after the opening byte; a response shifted out whole is collected. -/
def State.collect (s : State) (n : Nat) : State :=
  match s.port.phase, s.port.response with
  | .ready, some a =>
    let t := s.shiftOut (a.bytes.take n) (n - a.bytes.length)
    if a.bytes.length ≤ n then t.setPort { t.port with phase := .idle, response := none } else t
  | _, _ => s.shiftOut (noneResponse.take n) (n - 4)

/-- COLLECT. -/
def execCollect (bytes : Nat) (s : State) : Host.Outcome State Fault Refusal := s.act fun s => s.collect bytes

/-- R116, R171: a deferred LEAVE or HOLD is taken once the window it waits for has ended, in the state it finds; the entry to
FAULT ends the wait. After a lost arbitration it waits for no window (notes/assumptions/34.md). -/
def State.takeDeferred (s : State) : State :=
  if 0 < s.mem.departWait then s
  else match s.port.slot with
    | some .leave => s.takeLeave.settle
    | some .hold => s.takeHold.settle
    | some (.read _) => s
    | none => s

/-- DEFERRED_COMMAND_TAKEN. -/
def execDeferredCommandTaken (s : State) : Host.Outcome State Fault Refusal := s.act State.takeDeferred

end Sys2Proof.Machine
end

