-- ==== Sys2Proof/Machine/Reset.lean ====
section
/-! DEFINITION. The meanings of HARDWARE_RESET and RESET_RELEASE (R1, R139, R143, R144, R155, R167, R181). -/

namespace Sys2Proof.Machine

/-- The record array after the operation in progress is abandoned (R1, R139): a write may have reached some bytes of its
cell, and which is free (notes/assumptions/10.md). -/
def State.abandonedArray (s : State) : List Host.Cell :=
  if s.portOp = some .commitWrite then
    match s.conf.write with
    | some w => arrayAbandon s.array (cellAddress w.gsn) s.freeCount 0 w.payload
    | none => s.array
  else s.array

/-- R1: every block takes its reset value; the record array is not cleared. -/
def State.hardwareReset (s : State) : State :=
  (((State.reset.setPending s.pending).setNow s.now).setFreeCount (s.freeCount + 1)).setArray
    s.abandonedArray

/-- The number that pin levels stand for, the most significant pin first. -/
def pinsNat (levels : List Bool) : Nat := levels.foldl (fun n level => 2 * n + level.toNat) 0

/-- R181: station number, rate code and slice code; SID3, RATE1 and SLICE1 are the most significant pins. -/
def strapsOf (station : StationPins) (rate : RatePins) (slice : SlicePins) : Straps :=
  { station := Fin.ofNat 16 (pinsNat [station.sid3, station.sid2, station.sid1, station.sid0])
    rate := Fin.ofNat 4 (pinsNat [rate.rate1, rate.rate0])
    slice := Fin.ofNat 4 (pinsNat [slice.slice1, slice.slice0]) }

/-- R181, R144, R155: the straps are sampled; the interval timer and the temperature evaluations start. -/
def State.release (s : State) (straps : Straps) : State :=
  let s := (s.setStraps straps).setResetHeld false
  let s := s.setSwp { s.swp with intervalEnd := some (s.now + intervalLength straps.slice .normal) }
  (s.setTemp { s.temp with nextEval := some (s.now + ms 1) }).withArb s.arb

/-- HARDWARE_RESET. -/
def execHardwareReset (s : State) : Host.Outcome State Fault Refusal := .next s.hardwareReset

/-- RESET_RELEASE: nothing unless RESET_N is low, and no least time for which it was low (notes/assumptions/7.md). -/
def execResetRelease (station : StationPins) (rate : RatePins) (slice : SlicePins) (s : State) :
    Host.Outcome State Fault Refusal :=
  .next (if s.resetHeld then s.release (strapsOf station rate slice) else s)

end Sys2Proof.Machine
end

