-- ==== Sys2Proof/Machine/Retention.lean ====
section
/-! DEFINITION. The meanings of the sweep engine's, the temperature monitor's and hold's events (R143 to R165):
SWEEP_SLICE_GRANT to EXIT_PASS_COMPLETE. -/

namespace Sys2Proof.Machine

/-! ## Slices (R143, R145, R147) -/

/-- The rank of the sweep engine's waiting request. -/
def State.sweepWaits (s : State) : Option Nat := s.arb.sweep.map Request.rank

/-- The waiting request is one for a slice (R140). -/
def State.sliceWaits (s : State) : Bool :=
  s.sweepWaits == some 1 || s.sweepWaits == some 6 || s.sweepWaits == some 7

/-- SWEEP_SLICE_GRANT: a standing licence is consumed, whatever the rank (R147); at a balance of 6 or 7 the next QUIET is
offered from there on (R150, notes/assumptions/43.md). -/
def execSweepSliceGrant (s : State) : Host.Outcome State Fault Refusal :=
  s.act fun s =>
    if s.sliceWaits && s.grantable .sweep then
      let s := s.takeGrant .sweep .slice (some (s.now + us (sliceMicros s.straps.slice)))
      (s.setSwp { s.swp with licence := false }).settle
    else s

/-- The balance after a slice; it lies between -8 and 8 (R145, notes/assumptions/13.md). -/
def balanceDown (b : Int) : Int := max (-8) (b - 1)

/-- The balance after a counted expiry (R145, notes/assumptions/13.md). -/
def balanceUp (b : Int) : Int := min 8 (b + 1)

/-- The slice position after a slice (R143). -/
def nextPosition (code : Fin 4) (p : Nat) : Nat := (p + 1) % slicesPerPass code

/-- SWEEP_SLICE_COMPLETE: the reasons are judged afresh (R146). -/
def execSweepSliceComplete (s : State) : Host.Outcome State Fault Refusal :=
  s.act fun s =>
    if s.sliceGranted then
      let s := (s.at s.portEnds).freePort
      (s.setSwp { s.swp with
        balance := balanceDown s.swp.balance, position := nextPosition s.straps.slice s.swp.position }).settle
    else s

/-- R145: the balance and the cool mark after an expiry in a class. -/
def countExpiry (cls : TempClass) (x : Sweep) : Sweep :=
  match cls, x.cool with
  | .cool, .count => { x with balance := balanceUp x.balance, cool := .skip }
  | .cool, .skip => { x with cool := .count }
  | _, _ => { x with balance := balanceUp x.balance }

/-- INTERVAL_TIMER_EXPIRY. -/
def execIntervalTimerExpiry (s : State) : Host.Outcome State Fault Refusal :=
  s.act fun s =>
    match s.swp.intervalEnd with
    | some t =>
      let s := s.at t
      let x := countExpiry s.temp.cls s.swp
      (s.setSwp { x with intervalEnd := some (t + intervalLength s.straps.slice s.temp.cls) }).settle
    | none => s

/-- R149, R154: the balance allows a pull-in. -/
def State.pullInBalance (s : State) : Bool := decide (-7 ≤ s.swp.balance) && decide (s.swp.balance ≤ 0)

/-- PULL_IN (R149): not before the idle run has reached 200 bt. -/
def execPullIn (s : State) : Host.Outcome State Fault Refusal :=
  s.act fun s =>
    match s.swp.idleSince with
    | some t => if s.inGroup && s.pullInBalance then (s.at (t + s.bt 200)).settle else s
    | none => s

/-- PORT_QUIET_PULL_IN (R154): not before the port has been quiet for 200 microseconds. -/
def execPortQuietPullIn (s : State) : Host.Outcome State Fault Refusal :=
  s.act fun s =>
    match s.swp.quietSince with
    | some t => if !s.inGroup && !s.onHold && s.pullInBalance then (s.at (t + us 200)).settle else s
    | none => s

/-! ## Temperature (R155 to R157) -/

/-- R155: the class of a temperature by the ranges. -/
def rangeClass (celsius : Int) : TempClass :=
  if celsius < 40 then .cool else if celsius < 85 then .normal else if celsius < 100 then .hot else .critical

/-- R156: the class that a class falls to, or itself, by the table's "below" (notes/assumptions/44.md). -/
def fallClass (cls : TempClass) (celsius : Int) : TempClass :=
  match cls with
  | .critical => if celsius < 37 then .cool else if celsius < 82 then .normal else if celsius < 97 then .hot else .critical
  | .hot => if celsius < 37 then .cool else if celsius < 82 then .normal else .hot
  | .normal => if celsius < 37 then .cool else .normal
  | .cool => .cool

/-- R156: the class after an evaluation that is not the first. -/
def nextClass (cls : TempClass) (celsius : Int) : TempClass :=
  if cls.code < (rangeClass celsius).code then rangeClass celsius else fallClass cls celsius

/-- R157: a running interval is cut to a new length. -/
def cutTimer (timer : Option Nat) (now length : Nat) : Option Nat := timer.map fun t => min t (now + length)

/-- R157, R162: a change of class; in COOL the cool mark is COUNT in every station state (notes/assumptions/45.md). -/
def State.changeClass (s : State) (cls : TempClass) : State :=
  let s := (s.setTemp { s.temp with cls := cls }).post (.temperature cls)
  s.setSwp { s.swp with
    intervalEnd := cutTimer s.swp.intervalEnd s.now (intervalLength s.straps.slice cls)
    holdTimer := cutTimer s.swp.holdTimer s.now (holdSpacing cls)
    cool := if cls = .cool then .count else s.swp.cool }

/-- R155, R156: the evaluation that was due at `due`. -/
def State.evaluate (s : State) (due : Nat) (celsius : Int) : State :=
  let cls := if s.temp.evaluated then nextClass s.temp.cls celsius else rangeClass celsius
  let s := s.setTemp { s.temp with evaluated := true, nextEval := some (due + ms 1) }
  if cls = s.temp.cls then s else s.changeClass cls

/-- TEMPERATURE_EVALUATION. -/
def execTemperatureEvaluation (celsius : Int) (s : State) : Host.Outcome State Fault Refusal :=
  s.act fun s =>
    match s.temp.nextEval with
    | some t => (s.at t).evaluate t celsius
    | none => s

/-! ## Hold (R161 to R165) -/

/-- HOLD_TIMER_EXPIRY (R162). -/
def execHoldTimerExpiry (s : State) : Host.Outcome State Fault Refusal :=
  s.act fun s =>
    match s.swp.holdTimer with
    | some t =>
      let s := s.at t
      let s := s.setSwp { s.swp with holdTimer := some (t + holdSpacing s.temp.cls) }
      if s.swp.passState = some .none then
        (s.setSwp { s.swp with passState := some .waiting }).place .sweep 8
      else s
    | none => s

/-- INTERNAL_PASS_GRANT (R162). -/
def execInternalPassGrant (s : State) : Host.Outcome State Fault Refusal :=
  s.act fun s =>
    if s.swp.passState = some .waiting ∧ s.sweepWaits = some 8 ∧ s.grantable .sweep = true then
      let s := s.takeGrant .sweep .internalPass (some (s.now + passTime))
      s.setSwp { s.swp with passState := some .running }
    else s

/-- INTERNAL_PASS_COMPLETE (R162); after a RELEASE the pass state is absent already (R163). -/
def execInternalPassComplete (s : State) : Host.Outcome State Fault Refusal :=
  s.act fun s =>
    if s.portOp = some .internalPass then
      let s := (s.at s.portEnds).freePort
      s.setSwp { s.swp with passState := s.swp.passState.map fun _ => .none }
    else s

/-- EXIT_PASS_GRANT (R164). -/
def execExitPassGrant (s : State) : Host.Outcome State Fault Refusal :=
  s.act fun s =>
    if s.sweepWaits = some 2 ∧ s.grantable .sweep = true then
      s.takeGrant .sweep .exitPass (some (s.now + passTime))
    else s

/-- R165: the engine's values after the exit pass. -/
def State.restartEngine (s : State) : State :=
  s.setSwp { s.swp with
    balance := 0, position := 0, intervalEnd := some (s.now + intervalLength s.straps.slice s.temp.cls), cool := .count,
    licence := false, idleSince := none, quietSince := if s.arb.quiet then some s.now else none }

/-- EXIT_PASS_COMPLETE (R165). -/
def execExitPassComplete (s : State) : Host.Outcome State Fault Refusal :=
  s.act fun s =>
    if s.portOp = some .exitPass then (((s.at s.portEnds).freePort).restartEngine.enterListening).settle else s

end Sys2Proof.Machine
end

