-- ==== Sys2Proof/Machine/Dispatch.lean ====
section
/-! DEFINITION. The dispatch: one arm for each command. -/

namespace Sys2Proof.Machine

/-- What a command does to everything but the queue. -/
def exec (i : Instr) (s : State) : Host.Outcome State Fault Refusal :=
  match i with
  | .hardwareReset => Sys2Proof.Machine.execHardwareReset s
  | .resetRelease station rate slice => Sys2Proof.Machine.execResetRelease station rate slice s
  | .start group heartbeat retryLimit commitMode historyDepth holdAbort => Sys2Proof.Machine.execStart group heartbeat retryLimit commitMode historyDepth holdAbort s
  | .join => Sys2Proof.Machine.execJoin s
  | .submit payload => Sys2Proof.Machine.execSubmit payload s
  | .read gsn => Sys2Proof.Machine.execRead gsn s
  | .status => Sys2Proof.Machine.execStatus s
  | .peers => Sys2Proof.Machine.execPeers s
  | .notice => Sys2Proof.Machine.execNotice s
  | .leave => Sys2Proof.Machine.execLeave s
  | .hold => Sys2Proof.Machine.execHold s
  | .release => Sys2Proof.Machine.execRelease s
  | .malformedCommand opening params => Sys2Proof.Machine.execMalformedCommand opening params s
  | .collect bytes => Sys2Proof.Machine.execCollect bytes s
  | .deferredCommandTaken => Sys2Proof.Machine.execDeferredCommandTaken s
  | .syncWaitEnd => Sys2Proof.Machine.execSyncWaitEnd s
  | .frameStart => Sys2Proof.Machine.execFrameStart s
  | .ownFrameStart => Sys2Proof.Machine.execOwnFrameStart s
  | .arbitrationLost => Sys2Proof.Machine.execArbitrationLost s
  | .readbackFailure => Sys2Proof.Machine.execReadbackFailure s
  | .duplicateStation => Sys2Proof.Machine.execDuplicateStation s
  | .frameEnd bytes framing => Sys2Proof.Machine.execFrameEnd bytes framing s
  | .frameTruncated bytes framing => Sys2Proof.Machine.execFrameTruncated bytes framing s
  | .windowOpen => Sys2Proof.Machine.execWindowOpen s
  | .objectionPullEnd => Sys2Proof.Machine.execObjectionPullEnd s
  | .windowEnd lowRun => Sys2Proof.Machine.execWindowEnd lowRun s
  | .separationEnd => Sys2Proof.Machine.execSeparationEnd s
  | .dataLineFault => Sys2Proof.Machine.execDataLineFault s
  | .faultWaitEnd => Sys2Proof.Machine.execFaultWaitEnd s
  | .objectionLineFault => Sys2Proof.Machine.execObjectionLineFault s
  | .objectionLineRecovery => Sys2Proof.Machine.execObjectionLineRecovery s
  | .listenTimerExpiry => Sys2Proof.Machine.execListenTimerExpiry s
  | .joinWaitExpiry => Sys2Proof.Machine.execJoinWaitExpiry s
  | .leaveTimerExpiry => Sys2Proof.Machine.execLeaveTimerExpiry s
  | .heartbeatTick => Sys2Proof.Machine.execHeartbeatTick s
  | .peerSilent station => Sys2Proof.Machine.execPeerSilent station s
  | .presenceTimerExpiry => Sys2Proof.Machine.execPresenceTimerExpiry s
  | .quietMarkExpiry station => Sys2Proof.Machine.execQuietMarkExpiry station s
  | .staleWaitEnd => Sys2Proof.Machine.execStaleWaitEnd s
  | .backoffEnd => Sys2Proof.Machine.execBackoffEnd s
  | .catchUpDeadline => Sys2Proof.Machine.execCatchUpDeadline s
  | .responderBackoffEnd => Sys2Proof.Machine.execResponderBackoffEnd s
  | .drainComplete => Sys2Proof.Machine.execDrainComplete s
  | .commitWriteGrant => Sys2Proof.Machine.execCommitWriteGrant s
  | .commitWriteComplete => Sys2Proof.Machine.execCommitWriteComplete s
  | .earlyWriteComplete => Sys2Proof.Machine.execEarlyWriteComplete s
  | .replayReadGrant => Sys2Proof.Machine.execReplayReadGrant s
  | .replayReadComplete => Sys2Proof.Machine.execReplayReadComplete s
  | .localReadGrant => Sys2Proof.Machine.execLocalReadGrant s
  | .localReadComplete => Sys2Proof.Machine.execLocalReadComplete s
  | .sweepSliceGrant => Sys2Proof.Machine.execSweepSliceGrant s
  | .sweepSliceComplete => Sys2Proof.Machine.execSweepSliceComplete s
  | .intervalTimerExpiry => Sys2Proof.Machine.execIntervalTimerExpiry s
  | .pullIn => Sys2Proof.Machine.execPullIn s
  | .portQuietPullIn => Sys2Proof.Machine.execPortQuietPullIn s
  | .temperatureEvaluation celsius => Sys2Proof.Machine.execTemperatureEvaluation celsius s
  | .holdTimerExpiry => Sys2Proof.Machine.execHoldTimerExpiry s
  | .internalPassGrant => Sys2Proof.Machine.execInternalPassGrant s
  | .internalPassComplete => Sys2Proof.Machine.execInternalPassComplete s
  | .exitPassGrant => Sys2Proof.Machine.execExitPassGrant s
  | .exitPassComplete => Sys2Proof.Machine.execExitPassComplete s

end Sys2Proof.Machine
end

