-- ==== Sys2Proof/WellFormed.lean ====
section
/-! DEFINITION. Which commands are well formed: the operands that an event of its kind can carry. -/

namespace Sys2Proof

/-- A whole frame as the levels of its bytes give it (R27, R33). -/
def wellFormedFrame (bytes : List Byte) (framing : List FramingLevels) : Bool :=
  frameFromLevels (lineLevels bytes framing) == some (.frameEnd bytes framing)

/-- A truncated frame as the levels of its complete bytes and of its end give it (R27, R34). -/
def wellFormedTruncation (bytes : List Byte) (framing : List FramingLevels) : Bool :=
  frameFromLevels (lineLevels bytes framing ++ brokenOff framing) == some (.frameTruncated bytes framing)

/-- The check on a command's operands. -/
def Instr.wf : Instr → Bool
  | .submit payload => payload.length ≤ 255
  | .malformedCommand opening params => opening != collectCode && (decodeTransaction opening params).isNone
  | .frameEnd bytes framing => wellFormedFrame bytes framing
  | .frameTruncated bytes framing => wellFormedTruncation bytes framing
  | .hardwareReset | .resetRelease .. | .start .. | .join | .read _ | .status | .peers | .notice | .leave | .hold
  | .release | .collect _ | .deferredCommandTaken | .syncWaitEnd | .frameStart | .ownFrameStart | .arbitrationLost
  | .readbackFailure | .duplicateStation | .windowOpen | .objectionPullEnd | .windowEnd _ | .separationEnd
  | .dataLineFault | .faultWaitEnd | .objectionLineFault | .objectionLineRecovery | .listenTimerExpiry
  | .joinWaitExpiry | .leaveTimerExpiry | .heartbeatTick | .peerSilent _ | .presenceTimerExpiry | .quietMarkExpiry _
  | .staleWaitEnd | .backoffEnd | .catchUpDeadline | .responderBackoffEnd | .drainComplete | .commitWriteGrant
  | .commitWriteComplete | .earlyWriteComplete | .replayReadGrant | .replayReadComplete | .localReadGrant
  | .localReadComplete | .sweepSliceGrant | .sweepSliceComplete | .intervalTimerExpiry | .pullIn | .portQuietPullIn
  | .temperatureEvaluation _ | .holdTimerExpiry | .internalPassGrant | .internalPassComplete | .exitPassGrant
  | .exitPassComplete => true

/-- A command is well formed. -/
abbrev Instr.WellFormed (i : Instr) : Prop := i.wf = true

end Sys2Proof
end

