-- ==== Sys2Proof/Laws/PerInstr.lean ====
section
/-! SUPPORT. Statements made per command. The family Transaction: a well-formed command of the local port, sent as its command
transaction (R169, R184), is decoded as itself, and a malformed one is decoded as no command. -/

set_option Elab.async false

namespace Sys2Proof.Laws.Transaction

/-- The command is a malformed transaction. -/
def isMalformed : Instr → Bool
  | .malformedCommand .. => true
  | _ => false

/-- R184: the transaction that a well-formed command is sent as is decoded as that command; a malformed one as none. -/
def Statement (i : Instr) : Prop :=
  i.WellFormed → ∀ opening params, encodeTransaction i = some (opening, params) →
    decodeTransaction opening params = if isMalformed i then none else some i

/-- Two bytes of a field, high byte first, are the field. -/
theorem split16 (d : BitVec 16) : d.extractLsb' 8 8 ++ d.extractLsb' 0 8 = d := by
  apply BitVec.eq_of_getLsbD_eq
  intro i hi
  simp only [BitVec.getLsbD_append, BitVec.getLsbD_extractLsb']
  split
  · rename_i h; simp [h]
  · rename_i h
    have : 8 + (i - 8) = i := by omega
    simp [this]; omega

/-- Six bytes of a field, high byte first, are the field. -/
theorem split48 (d : BitVec 48) : d.extractLsb' 40 8 ++ d.extractLsb' 32 8 ++ d.extractLsb' 24 8 ++ d.extractLsb' 16 8 ++ d.extractLsb' 8 8 ++ d.extractLsb' 0 8 = d := by
  apply BitVec.eq_of_getLsbD_eq
  intro i hi
  simp only [BitVec.getLsbD_append, BitVec.getLsbD_extractLsb']
  repeat' split
  all_goals
    rw [Bool.and_eq_right_iff_imp.2 fun _ => by simp; omega]
    congr 1; omega

theorem hardwareReset : Statement .hardwareReset := fun _ _ _ h => nomatch h

theorem resetRelease (station : StationPins) (rate : RatePins) (slice : SlicePins) : Statement (.resetRelease station rate slice) := fun _ _ _ h => nomatch h

theorem start (group : Byte) (heartbeat : Byte) (retryLimit : Byte) (commitMode : Byte) (historyDepth : BitVec 16) (holdAbort : Byte) : Statement (.start group heartbeat retryLimit commitMode historyDepth holdAbort) := by
  intro _ o ps h
  cases h
  exact congrArg (fun d => some (Instr.start group heartbeat retryLimit commitMode d holdAbort)) (split16 historyDepth)

theorem join : Statement .join := by
  intro _ o ps h
  cases h
  rfl

theorem submit (payload : List Byte) : Statement (.submit payload) := by
  intro w o ps h
  cases h
  have w : decide (payload.length ≤ 255) = true := w
  rw [decide_eq_true_eq] at w
  show (if payload.length = (BitVec.ofNat 8 payload.length).toNat then some (Instr.submit payload) else none) = _
  rw [BitVec.toNat_ofNat, Nat.mod_eq_of_lt (by omega), if_pos rfl]
  rfl

theorem read (gsn : BitVec 48) : Statement (.read gsn) := by
  intro _ o ps h
  cases h
  exact congrArg (fun g => some (Instr.read g)) (split48 gsn)

theorem status : Statement .status := by
  intro _ o ps h
  cases h
  rfl

theorem peers : Statement .peers := by
  intro _ o ps h
  cases h
  rfl

theorem notice : Statement .notice := by
  intro _ o ps h
  cases h
  rfl

theorem leave : Statement .leave := by
  intro _ o ps h
  cases h
  rfl

theorem hold : Statement .hold := by
  intro _ o ps h
  cases h
  rfl

theorem release : Statement .release := by
  intro _ o ps h
  cases h
  rfl

theorem malformedCommand (opening : Byte) (params : List Byte) : Statement (.malformedCommand opening params) := by
  intro w o ps h
  cases h
  have w : (opening != collectCode && (decodeTransaction opening params).isNone) = true := w
  rw [Bool.and_eq_true, Option.isNone_iff_eq_none] at w
  exact w.2

theorem collect (bytes : Nat) : Statement (.collect bytes) := fun _ _ _ h => nomatch h

theorem deferredCommandTaken : Statement .deferredCommandTaken := fun _ _ _ h => nomatch h

theorem syncWaitEnd : Statement .syncWaitEnd := fun _ _ _ h => nomatch h

theorem frameStart : Statement .frameStart := fun _ _ _ h => nomatch h

theorem ownFrameStart : Statement .ownFrameStart := fun _ _ _ h => nomatch h

theorem arbitrationLost : Statement .arbitrationLost := fun _ _ _ h => nomatch h

theorem readbackFailure : Statement .readbackFailure := fun _ _ _ h => nomatch h

theorem duplicateStation : Statement .duplicateStation := fun _ _ _ h => nomatch h

theorem frameEnd (bytes : List Byte) (framing : List FramingLevels) : Statement (.frameEnd bytes framing) := fun _ _ _ h => nomatch h

theorem frameTruncated (bytes : List Byte) (framing : List FramingLevels) : Statement (.frameTruncated bytes framing) := fun _ _ _ h => nomatch h

theorem windowOpen : Statement .windowOpen := fun _ _ _ h => nomatch h

theorem objectionPullEnd : Statement .objectionPullEnd := fun _ _ _ h => nomatch h

theorem windowEnd (lowRun : Nat) : Statement (.windowEnd lowRun) := fun _ _ _ h => nomatch h

theorem separationEnd : Statement .separationEnd := fun _ _ _ h => nomatch h

theorem dataLineFault : Statement .dataLineFault := fun _ _ _ h => nomatch h

theorem faultWaitEnd : Statement .faultWaitEnd := fun _ _ _ h => nomatch h

theorem objectionLineFault : Statement .objectionLineFault := fun _ _ _ h => nomatch h

theorem objectionLineRecovery : Statement .objectionLineRecovery := fun _ _ _ h => nomatch h

theorem listenTimerExpiry : Statement .listenTimerExpiry := fun _ _ _ h => nomatch h

theorem joinWaitExpiry : Statement .joinWaitExpiry := fun _ _ _ h => nomatch h

theorem leaveTimerExpiry : Statement .leaveTimerExpiry := fun _ _ _ h => nomatch h

theorem heartbeatTick : Statement .heartbeatTick := fun _ _ _ h => nomatch h

theorem peerSilent (station : Station) : Statement (.peerSilent station) := fun _ _ _ h => nomatch h

theorem presenceTimerExpiry : Statement .presenceTimerExpiry := fun _ _ _ h => nomatch h

theorem quietMarkExpiry (station : Station) : Statement (.quietMarkExpiry station) := fun _ _ _ h => nomatch h

theorem staleWaitEnd : Statement .staleWaitEnd := fun _ _ _ h => nomatch h

theorem backoffEnd : Statement .backoffEnd := fun _ _ _ h => nomatch h

theorem catchUpDeadline : Statement .catchUpDeadline := fun _ _ _ h => nomatch h

theorem responderBackoffEnd : Statement .responderBackoffEnd := fun _ _ _ h => nomatch h

theorem drainComplete : Statement .drainComplete := fun _ _ _ h => nomatch h

theorem commitWriteGrant : Statement .commitWriteGrant := fun _ _ _ h => nomatch h

theorem commitWriteComplete : Statement .commitWriteComplete := fun _ _ _ h => nomatch h

theorem earlyWriteComplete : Statement .earlyWriteComplete := fun _ _ _ h => nomatch h

theorem replayReadGrant : Statement .replayReadGrant := fun _ _ _ h => nomatch h

theorem replayReadComplete : Statement .replayReadComplete := fun _ _ _ h => nomatch h

theorem localReadGrant : Statement .localReadGrant := fun _ _ _ h => nomatch h

theorem localReadComplete : Statement .localReadComplete := fun _ _ _ h => nomatch h

theorem sweepSliceGrant : Statement .sweepSliceGrant := fun _ _ _ h => nomatch h

theorem sweepSliceComplete : Statement .sweepSliceComplete := fun _ _ _ h => nomatch h

theorem intervalTimerExpiry : Statement .intervalTimerExpiry := fun _ _ _ h => nomatch h

theorem pullIn : Statement .pullIn := fun _ _ _ h => nomatch h

theorem portQuietPullIn : Statement .portQuietPullIn := fun _ _ _ h => nomatch h

theorem temperatureEvaluation (celsius : Int) : Statement (.temperatureEvaluation celsius) := fun _ _ _ h => nomatch h

theorem holdTimerExpiry : Statement .holdTimerExpiry := fun _ _ _ h => nomatch h

theorem internalPassGrant : Statement .internalPassGrant := fun _ _ _ h => nomatch h

theorem internalPassComplete : Statement .internalPassComplete := fun _ _ _ h => nomatch h

theorem exitPassGrant : Statement .exitPassGrant := fun _ _ _ h => nomatch h

theorem exitPassComplete : Statement .exitPassComplete := fun _ _ _ h => nomatch h

end Sys2Proof.Laws.Transaction
end

