-- ==== Sys2Proof/Safety.lean ====
section
/-! DEFINITION. What a station keeps: the bounds and shapes that every step preserves, and the part of the state that only
named commands change. -/

namespace Sys2Proof.Machine

/-- The part of the state that the working of the blocks leaves alone: each field is changed by a few named commands. -/
structure Fixed where
  pending : List Instr
  now : Nat
  freeCount : Nat
  resetHeld : Bool
  straps : Straps
  params : Option StartParams
  array : List Host.Cell
  temp : Temperature
  tagCounter : Nat
  deriving DecidableEq, Repr

/-- The fixed part of a state. -/
def State.fixed (s : State) : Fixed :=
  { pending := s.pending, now := s.now, freeCount := s.freeCount, resetHeld := s.resetHeld, straps := s.straps,
    params := s.params, array := s.array, temp := s.temp, tagCounter := s.out.tagCounter }

/-- From `s` to `t` the clock and the index of the next free value may move on; the queue, the straps, the START parameters,
the record array, the temperature monitor and the tag counter stay. -/
abbrev State.KeepsFixed (s t : State) : Prop := t.fixed = { s.fixed with now := t.now, freeCount := t.freeCount }

/-- The record array is in canonical form. -/
abbrev State.ArrayCanonical (s : State) : Prop := Memory.wf s.array = true

/-- R167, R179: at most 32 notices, a lost-notice count of at most 255. -/
abbrev LocalPort.Bounded (p : LocalPort) : Prop := p.notices.length ≤ Config.noticeMax ∧ p.lost ≤ 255

/-- R60, R81, R144, R176: the ranges of the counts. -/
abbrev State.CountsBounded (s : State) : Prop :=
  s.conf.entries.length ≤ Config.pendingMax ∧ s.conf.budget ≤ 16 ∧ s.out.entries.length ≤ Config.outboundMax ∧
  1 ≤ s.out.tagCounter ∧ s.out.tagCounter ≤ 65535 ∧ -8 ≤ s.swp.balance ∧ s.swp.balance ≤ 8 ∧ s.swp.position ≤ 3

/-- R3, R4: a window that is not empty holds at most 4,096 GSNs, and the frontier is its high plus one. -/
abbrev Directory.Shaped (d : Directory) : Prop :=
  ∀ w ∈ d.window, w.low ≤ w.high ∧ w.high ≤ w.low + 4095 ∧ d.frontier = w.high + 1

/-- R2, R5: every descriptor stands in the slot of its GSN, no slot twice; the gap count and the lost count are the numbers
of GAP and LOST slots. -/
abbrev Directory.Counted (d : Directory) : Prop :=
  mapSorted d.slots = true ∧ (∀ e ∈ d.slots, e.1 = slotOf e.2.gsn) ∧
  d.gapCount = d.slots.countP (fun e => isGapSlot (some e.2)) ∧
  d.lostCount = d.slots.countP (fun e => isLostSlot (some e.2))

/-- R2, R3: every GSN of the window is held in its slot, and every descriptor stands in the slot of its GSN and holds a GSN of
the window; so every slot is VACANT when the window is empty. -/
abbrev Directory.Filled (d : Directory) : Prop :=
  (∀ w ∈ d.window, ∀ g, w.low ≤ g → g ≤ w.high → (d.held g).isSome = true) ∧
  (∀ n x, d.slotAt n = some x → slotOf x.gsn = n ∧ ∃ w ∈ d.window, w.low ≤ x.gsn ∧ x.gsn ≤ w.high)

/-- R172: a history depth that START has accepted is at most 4,095. -/
abbrev State.DepthInRange (s : State) : Prop := ∀ p ∈ s.params, p.historyDepth ≤ 4095

/-- R3, R4, R172 together, as a step needs them. -/
abbrev State.WindowShaped (s : State) : Prop := s.DepthInRange ∧ s.dir.Shaped

/-- R106: a MEMBER has no GAP slot, a station in SYNCING has one. -/
abbrev State.StateFollowsGaps (s : State) : Prop :=
  (s.mem.st = .member → s.dir.gapCount = 0) ∧ (s.mem.st = .syncing → 0 < s.dir.gapCount)

/-- The received set of the requester context is listed in rising order (R120; the list is the model's form of the set). -/
abbrev State.ReceivedRises (s : State) : Prop := ∀ c, s.cat.requester = some c → c.received.Pairwise (· < ·)

/-! ## The selector's choice (R96) -/

/-- R96: the station states in which a frame of this kind may be chosen. -/
def FrameBody.allowedIn (b : FrameBody) (st : StationState) : Prop :=
  match b with
  | .found _ => st = .founding
  | .join _ => st = .joining
  | .leave _ => st = .leaving
  | _ => st = .syncing ∨ st = .member

/-- R96: a sender's offer is present and of a kind that the station state allows. -/
def State.offerAllowed (s : State) : Sender → Prop
  | .outbound => s.sel.record = true ∧ (s.mem.st = .syncing ∨ s.mem.st = .member)
  | who => ∃ b, s.sel.offer who = some b ∧ b.allowedIn s.mem.st

/-- R96: an offer's place in the order of choice: the sweep engine's QUIET, the membership unit's LEAVE, FOUND or JOIN, the
responder's REPLAY or GONE, the requester's FETCH, the outbound queue's RECORD, PRESENCE. -/
def State.choiceOrder (s : State) : Sender → Nat
  | .sweep => 1
  | .membership => match s.sel.membership with
    | some (.presence ..) => 6
    | _ => 2
  | .responder => 3
  | .requester => 4
  | .outbound => 5

/-- R96: on an idle bus the choice is absent only when no allowed offer is present. -/
abbrev State.ChoiceMade (s : State) : Prop := s.bus.rx = .idle → s.sel.choice = none → ∀ who, ¬ s.offerAllowed who

/-! ## What follows by itself -/

/-- An outbound entry with WAITING and CONTENDING read as one (R85). -/
def OutEntry.atRest (e : OutEntry) : OutEntry :=
  if e.state = .contending then { e with state := .waiting } else e

/-- From `u` to `t` nothing has happened but what follows by itself: the head's WAITING or CONTENDING with the RECORD offer
(R85), the choice (R96), the QUIET offer (R150), the values of an offered PRESENCE (R107), the waiting requests of the
commit writer and of the sweep engine with the port quiet time (R70, R146, R154). -/
structure Follows (u t : State) : Prop where
  same : t = { u with out := t.out, sel := t.sel, arb := t.arb, swp := { u.swp with quietSince := t.swp.quietSince } }
  queue : t.out.entries.map OutEntry.atRest = u.out.entries.map OutEntry.atRest
  tagCounter : t.out.tagCounter = u.out.tagCounter
  departing : t.out.departing = u.out.departing
  inFlight : t.sel.inFlight = u.sel.inFlight
  fetchOffer : t.sel.requester = u.sel.requester
  responseOffer : t.sel.responder = u.sel.responder
  memberOffer : u.sel.offersPresence = false → t.sel.membership = u.sel.membership
  grant : t.arb.grant = u.arb.grant
  responder : t.arb.responder = u.arb.responder
  localPort : t.arb.localPort = u.arb.localPort

/-- The command is answered with `a`, and nothing but the port changes: the bytes shifted out, and with them the index of
the next free value (notes/assumptions/11.md). -/
def State.AnswersOnly (s t : State) (a : Answer) : Prop :=
  t = { s with
    freeCount := t.freeCount
    port := { s.port with phase := .ready, slot := none, response := some a, sdo := t.port.sdo } }

/-- R85: the head is CONTENDING and its RECORD offered while the start conditions hold, else WAITING and not offered. -/
def State.HeadFollowsConditions (s : State) : Prop :=
  match s.out.entries with
  | [] => s.sel.record = false
  | h :: _ =>
    if h.state = .waiting ∨ h.state = .contending then
      s.sel.record = s.mayStartRecord ∧ h.state = (if s.mayStartRecord then .contending else .waiting)
    else s.sel.record = false

end Sys2Proof.Machine
end

