-- ==== Sys2Proof/Certificates/Slice0/Obligations.lean ====
section
/-! DEFINITION. The statements for the provers. -/

open Sys2Proof Sys2Proof.Machine

/-! ## What several statements speak of -/

/-- The byte that every transaction shifts out first (R168, 11_formats.md 11.3). -/
def statusByte (s : State) : Byte :=
  BitVec.ofNat 8 (s.port.phase.code + (if s.port.notices = [] then 0 else 4) + (if s.port.phase = .idle then 0 else 8))

/-- The oldest window is open and of a frame that was judged; the objection budget is too far from 16 for a FAULT. -/
def windowEnds (s : State) (w : WindowRun) : Prop :=
  s.resetHeld = false ∧ s.bus.windows.head? = some w ∧ w.opened = true ∧ w.overlapping = false ∧ s.conf.budget ≤ 14

/-- An own frame whose window closes with this low run is confirmed, with no readback failure. -/
def ownStands (w : WindowRun) (lowRun : Nat) : Bool := !w.readback && lowRun == 0 && w.pulled == 0

/-- The window that ends is the one of another station's frame, classified as `c`, to which nobody objects and for which no
pending entry waits. -/
def peerFrameEnds (s : State) (w : WindowRun) (c : Classified) : Prop :=
  windowEnds s w ∧ w.own = false ∧ w.pulled = 0 ∧ s.filter.window = some c ∧
  (∀ d, s.conf.decision = some d → d.hasEntry = false)

/-- The PRESENCE of a station (R107). -/
def presenceNow (s : State) : FrameBody :=
  .presence s.dir.frontier (match s.dir.window with | some w => w.low | none => 0)
    (match s.dir.held (s.dir.frontier - 1) with | some (.committed _ i) => i.check | _ => 0)
    (decide (s.mem.st = .member))

/-- R135: from `first` up to `last` the longest stretch of GSNs that are not held is of `n`. -/
def longestGone (d : Directory) (first last n : Nat) : Prop :=
  (∀ i < n, (d.lookup (first + i)).notHeld = true) ∧ first + n ≤ last + 1 ∧
  (first + n ≤ last → (d.lookup (first + n)).notHeld = false)

/-- Each waiting request that the arbiter may grant has the highest rank of those that wait (R141). -/
def grantsByRank (s : State) : Prop :=
  ∀ who q, s.arb.request who = some q → s.grantable who = true → ∀ x ∈ s.arb.waiting, q.rank ≤ x.rank

/-- The notices that stand behind those that were in the queue before an event. -/
def added (s t : State) : List Notice := t.port.notices.drop s.port.notices.length

/-- No notice was lost in an event: all that it posted have been added to the queue (R179). -/
def allPosted (s t : State) : Prop := s.port.Bounded ∧ s.port.lost < 255 ∧ t.port.lost = s.port.lost

/-- The `n` GSNs from `first` on are a contiguous stretch of a set, with neither neighbour in it (R20, R131, R133). -/
def stretch (p : Nat → Prop) (first n : Nat) : Prop :=
  1 ≤ n ∧ (∀ i < n, p (first + i)) ∧ ¬ p (first + n) ∧ ∀ g, g + 1 = first → ¬ p g

/-- R131, R133: among the notices of one event no LOST follows a GAP_FILLED, and neither follows a STATE. -/
def gapNoticesInOrder (l : List Notice) : Prop :=
  l.Pairwise fun a b => match a, b with
    | .gapFilled .., .lost .. => False
    | .state _, .lost .. => False
    | .state _, .gapFilled .. => False
    | _, _ => True

/-- The GSNs that the window's rise to a low of `low` retires from GAP (R19, R20). -/
def retiredGap (d : Directory) (low g : Nat) : Prop :=
  ∃ v, d.window = some v ∧ v.low ≤ g ∧ g < low ∧ g ≤ v.high ∧ d.held g = some (.gap g)

/-- R7, R10, R12, R13, R20: from `s` to `t` the GSNs from `first` up to below `stop` were opened, if there are any, and those
retired from GAP by a new low of `low` were lost: one GAP_OPENED, and before it one LOST for each contiguous stretch. -/
def opensAndRetires (s t : State) (low first stop : Nat) : Prop :=
  allPosted s t →
    (∀ g n, .gapOpened g n ∈ added s t ↔ g = first ∧ first + n = stop ∧ 0 < n) ∧
    (∀ g n, stretch (retiredGap s.dir low) g n → .lost g n ∈ added s t ∧
      ∀ x m, .gapOpened x m ∈ added s t → [.lost g n, .gapOpened x m].Sublist (added s t)) ∧
    gapNoticesInOrder (added s t)

/-- R121: a requester context just formed: over GAP slots from the lowest one up, 16 at most, nothing received or tried yet. -/
def freshContext (s : State) (c : RequesterCtx) : Prop :=
  c.received = [] ∧ c.attempt = 1 ∧ c.tried = [] ∧ 1 ≤ c.count ∧ c.count ≤ 16 ∧ s.mem.st = .syncing ∧
  (∀ g, c.first ≤ g → g < c.first + c.count → s.dir.held g = some (.gap g)) ∧
  (∀ v g, s.dir.window = some v → v.low ≤ g → g < c.first → s.dir.held g ≠ some (.gap g))

/-- R133, R121: from `s` to `t` the requester context has ended: one GAP_FILLED for each contiguous stretch of the received set,
and no context, or one just formed, is present. -/
def contextEnds (s t : State) (received : Nat → Prop) : Prop :=
  (t.cat.requester = none ∨ ∃ c, t.cat.requester = some c ∧ freshContext t c) ∧
  (allPosted s t → (∀ g n, .gapFilled g n ∈ added s t ↔ stretch received g n) ∧ gapNoticesInOrder (added s t))

/-- R122: a peer is a candidate for a run whose last GSN is `b`. -/
def candidate (s : State) (b : Nat) (k : Station) : Prop :=
  k ≠ s.straps.station ∧ (s.mem.peer k).status = .active ∧ (s.mem.peer k).divergence = none ∧
  ∃ f, (s.mem.peer k).heardFrontier = some f ∧ b < f

/-- R122: a candidate is usable for the run from `a` to `b`. -/
def usableFor (s : State) (a b : Nat) (k : Station) : Prop :=
  candidate s b k ∧ ∃ l, (s.mem.peer k).heardLow = some l ∧ l ≤ a

/-- R120: the mark of a station in the tried set. -/
def markOf (tried : List (Station × TriedMark)) (k : Station) : Option TriedMark :=
  (tried.find? fun e => e.1 == k).map Prod.snd

/-- R122: the responder to choose: the lowest-numbered usable candidate that is not in the tried set, else the lowest-numbered
one marked TIMED_OUT. -/
def chosen (s : State) (mark : Station → Option TriedMark) (a b : Nat) (j : Station) : Prop :=
  (usableFor s a b j ∧ mark j = none ∧ ∀ i, usableFor s a b i → mark i = none → j ≤ i) ∨
  ((∀ i, usableFor s a b i → mark i ≠ none) ∧ usableFor s a b j ∧ mark j = some .timedOut ∧
    ∀ i, usableFor s a b i → mark i = some .timedOut → j ≤ i)

/-- R122: no responder can be chosen. -/
def noneChosen (s : State) (mark : Station → Option TriedMark) (a b : Nat) : Prop :=
  ∀ i, usableFor s a b i → mark i = some .gone

/-- R123: the low-end test applies: `l` is the smallest heard low of the ACTIVE peers that have one, and it is above `a`. -/
def lowEndAt (s : State) (a l : Nat) : Prop :=
  a < l ∧ (∃ i, i ≠ s.straps.station ∧ (s.mem.peer i).status = .active ∧ (s.mem.peer i).heardLow = some l) ∧
  ∀ i m, i ≠ s.straps.station → (s.mem.peer i).status = .active → (s.mem.peer i).heardLow = some m → l ≤ m

/-- R124: GONE-exhausted; `m` is the smallest heard low of the candidates not marked GONE, or one above the run. -/
def exhaustedAt (s : State) (mark : Station → Option TriedMark) (a b m : Nat) : Prop :=
  (∃ i, usableFor s a b i) ∧ noneChosen s mark a b ∧ (∀ i, candidate s b i → (s.mem.peer i).heardLow ≠ none) ∧
  (((∀ i, candidate s b i → mark i = some .gone) ∧ m = b + 1) ∨
   ((∃ i, candidate s b i ∧ mark i ≠ some .gone ∧ (s.mem.peer i).heardLow = some m) ∧
    ∀ i n, candidate s b i → mark i ≠ some .gone → (s.mem.peer i).heardLow = some n → m ≤ n))

/-- The requester context over the run from `a` to `b`, with its marks, its attempt number and what it has received. -/
def contextOver (t : State) (phase : RequesterPhase) (mark : Station → Option TriedMark) (attempt : Nat)
    (received : Nat → Prop) (a b : Nat) : Prop :=
  ∃ c, t.cat.requester = some c ∧ c.first = a ∧ c.count = b + 1 - a ∧ c.phase = phase ∧ c.attempt = attempt ∧
    (∀ i, markOf c.tried i = mark i) ∧ ∀ g, g ∈ c.received ↔ received g

/-- R131: from `s` to `t` the GSNs from `a` up to below `stop` are given up: LOST, with one notice. -/
def givesUp (s t : State) (a stop : Nat) : Prop :=
  (∀ g, a ≤ g → g < stop → t.dir.held g = some (.lost g)) ∧
  (allPosted s t → .lost a (stop - a) ∈ added s t ∧ gapNoticesInOrder (added s t))

/-- R122, R124, where the low-end test does not apply: the chosen responder is asked for the run; a GONE-exhausted part is given
up and the remainder asked for; in every other case the context waits. -/
def selectsAbove (s t : State) (mark : Station → Option TriedMark) (attempt : Nat) (received : Nat → Prop) (a b : Nat) : Prop :=
  (∀ j, chosen t mark a b j → t.sel.requester = some (.fetch j a (b + 1 - a)) ∧
    contextOver t (.offered j) mark attempt received a b) ∧
  (∀ m, exhaustedAt t mark a b m → givesUp s t a (min m (b + 1)) ∧
    (∀ j, m ≤ b → chosen t mark m b j → t.sel.requester = some (.fetch j m (b + 1 - m)) ∧
      contextOver t (.offered j) mark attempt received m b) ∧
    (b < m → contextEnds s t received)) ∧
  (noneChosen t mark a b → (∀ m, ¬ exhaustedAt t mark a b m) → t.sel.requester = none ∧
    contextOver t .waitingPeer mark attempt received a b)

/-- R122 to R124: the selection for the run from `a` to `b`: what the low-end test gives up goes first, where nobody can be
chosen. -/
def selects (s t : State) (mark : Station → Option TriedMark) (attempt : Nat) (received : Nat → Prop) (a b : Nat) : Prop :=
  ((∃ j, chosen t mark a b j) ∨ (∀ l, ¬ lowEndAt t a l) → selectsAbove s t mark attempt received a b) ∧
  (∀ l, noneChosen t mark a b → lowEndAt t a l → givesUp s t a (min l (b + 1)) ∧
    (l ≤ b → selectsAbove s t mark attempt received l b) ∧ (b < l → contextEnds s t received))

/-- R120: the outstanding GSNs of a run. -/
def outstandingIn (d : Directory) (c : RequesterCtx) (g : Nat) : Prop :=
  c.first ≤ g ∧ g < c.first + c.count ∧ (d.held g = some (.gap g) ∨ ∃ i, d.held g = some (.tentative g i))

/-- Section 7.3: the run is cut to the `n` GSNs from `a` on: its lowest outstanding GSN and those that follow it. -/
def cutTo (d : Directory) (c : RequesterCtx) (a n : Nat) : Prop :=
  stretch (outstandingIn d c) a n ∧ ∀ g, outstandingIn d c g → a ≤ g

/-- R121: the lowest GAP slot of the window and those that follow it without a break, `n` in all, 16 at most. -/
def lowestGaps (d : Directory) (a n : Nat) : Prop :=
  let gap := fun g => d.held g = some (.gap g) ∧ ∃ v, d.window = some v ∧ v.low ≤ g ∧ g ≤ v.high
  1 ≤ n ∧ n ≤ 16 ∧ (∀ i < n, gap (a + i)) ∧ (n < 16 → ¬ gap (a + n)) ∧ ∀ g, gap g → a ≤ g

/-- A notice is surely in the queue after an event in which no notice has been lost (R179). -/
def postedUnlessLost (s t : State) (n : Notice) : Prop :=
  s.port.Bounded → s.port.lost < 255 → t.port.lost = s.port.lost → n ∈ t.port.notices

/-! ## Steps and reset -/

/-- A step takes the command at the front of the queue and runs it with the rest of the queue. -/
def Obligations.StepRunsFrontCommand : Prop :=
  ∀ (c : Instr) (rest : List Instr) (s : State),
    step { s with pending := c :: rest } = exec c { s with pending := rest }

/-- The model's choice, notes/assumptions/1.md: on an empty queue one unit of time passes, none while RESET_N is low. -/
def Obligations.EmptyQueueLetsTimePass : Prop :=
  ∀ s : State, s.pending = [] → step s = .next (if s.resetHeld then s else { s with now := s.now + 1 })

/-- Every command answers a next state, leaves the queue as it is, and time never runs back. -/
def Obligations.EveryCommandKeepsQueueAndTime : Prop :=
  ∀ (c : Instr) (s : State), ∃ t, exec c s = .next t ∧ t.pending = s.pending ∧ s.now ≤ t.now

/-- What reset leaves, block by block (R1, R28, R44, R60, R81, R95, R99, R110, R119, R139, R144, R155, R167), and that the
state at reset has the invariants stated below. -/
def Obligations.ResetLeavesTheGivenValues : Prop :=
  let s := State.reset
  ((∀ n, s.dir.slotAt n = none) ∧ s.dir.window = none ∧ s.dir.frontier = 0 ∧ s.dir.gapCount = 0 ∧ s.dir.lostCount = 0) ∧
  (s.bus.rx = .off ∧ s.bus.windows = [] ∧ s.bus.pull = none ∧ s.bus.dataFault = false ∧ s.bus.objFault = false ∧
    s.bus.inhibit = false ∧ s.filter.receive = none ∧ s.filter.window = none) ∧
  (s.conf.entries = [] ∧ s.conf.budget = 0 ∧ s.conf.decision = none ∧ s.conf.write = none ∧ s.conf.drain = false) ∧
  (s.out.entries = [] ∧ s.out.tagCounter = 1 ∧ (∀ who, s.sel.offer who = none) ∧ s.sel.record = false ∧
    s.sel.choice = none ∧ s.sel.inFlight = none) ∧
  (s.mem.st = .unset ∧ s.mem.faultFlag = false ∧ s.mem.learned = none ∧ s.mem.listenTimer = none ∧ s.mem.joinWait = none ∧
    s.mem.tick = none ∧ s.mem.presence = none ∧ s.mem.leave = none ∧ (∀ k, s.mem.peer k = Peer.reset)) ∧
  (s.cat.requester = none ∧ s.cat.responder = none ∧ s.arb.grant = none ∧ s.arb.waiting = []) ∧
  (s.swp.balance = 0 ∧ s.swp.position = 0 ∧ s.swp.cool = .count ∧ s.swp.licence = false ∧ s.temp.cls = .normal) ∧
  (s.port.phase = .idle ∧ s.port.slot = none ∧ s.port.response = none ∧ s.port.notices = [] ∧ s.port.lost = 0 ∧
    s.params = none) ∧
  (s.ArrayCanonical ∧ s.port.Bounded ∧ s.CountsBounded ∧ s.WindowShaped ∧ s.dir.Counted ∧ s.dir.Filled ∧
    s.HeadFollowsConditions ∧ s.StateFollowsGaps ∧ s.ReceivedRises ∧ s.ChoiceMade ∧ s.sel.presenceKept = none)

/-- R1, R43, R79, R81, R166: a hardware reset in any state gives every block its reset value; the record array is not
cleared: only the bytes of a commit write in progress may change. The model's choice: straps of 0, no bytes on SDO and instants
of 0 (notes/assumptions/8.md), RESET_N held low until a release (notes/assumptions/7.md), and which bytes of an abandoned
write have reached the array (notes/assumptions/10.md). -/
def Obligations.HardwareResetRestoresEveryBlock : Prop :=
  ∀ s : State, ∃ t, exec .hardwareReset s = .next t ∧
    t = { State.reset with pending := s.pending, now := s.now, freeCount := t.freeCount, array := t.array } ∧
    (s.portOp ≠ some .commitWrite → t.array = s.array) ∧
    (∀ w, s.conf.write = some w → ∀ a, (a < cellAddress w.gsn ∨ cellAddress w.gsn + w.payload.length ≤ a) →
      arrayRead t.array a = arrayRead s.array a)

/-- R181, R143 to R145, R155: the release samples the strap pins, SID3, RATE1 and SLICE1 being the most significant, and starts
the interval timer with the NORMAL length of the strapped mode and the temperature evaluations. The model's choice
(notes/assumptions/7.md): a release without a reset, and any other command while RESET_N is low, have no effect. -/
def Obligations.ResetReleaseSamplesStraps : Prop :=
  (∀ (a : StationPins) (b : RatePins) (c : SlicePins) (s : State), s.resetHeld = true → s.arb.grant = none → s.arb.waiting = [] →
    s.swp.quietSince = none → ∃ (k : Station) (rate slice : Fin 4),
      k.val = 8 * a.sid3.toNat + 4 * a.sid2.toNat + 2 * a.sid1.toNat + a.sid0.toNat ∧
      rate.val = 2 * b.rate1.toNat + b.rate0.toNat ∧ slice.val = 2 * c.slice1.toNat + c.slice0.toNat ∧
      exec (.resetRelease a b c) s = .next { s with
        resetHeld := false
        straps := { station := k, rate := rate, slice := slice }
        swp := { s.swp with
          intervalEnd := some (s.now + (if slice = 1 then 20000 else if slice = 2 then 10000 else 40000))
          quietSince := some s.now }
        temp := { s.temp with nextEval := some (s.now + 10000) } }) ∧
  (∀ (a : StationPins) (b : RatePins) (c : SlicePins) (s : State), s.resetHeld = false →
    exec (.resetRelease a b c) s = .next s) ∧
  (∀ (c : Instr) (s : State), s.resetHeld = true → c ≠ .hardwareReset → (∀ a b d, c ≠ .resetRelease a b d) → exec c s = .next s)

/-! ## The local port -/

/-- R168, R169: every command transaction shifts out the port status first; in a phase other than IDLE it is refused BUSY and
changes nothing else. -/
def Obligations.TransactionsShiftStatusAndRefuseBusy : Prop :=
  ∀ (c : Instr) (s : State), (encodeTransaction c).isSome → s.resetHeld = false → ∃ t, exec c s = .next t ∧
    t.port.sdo.head? = some (statusByte s) ∧
    (s.port.phase ≠ .idle → t = { s with freeCount := t.freeCount, port := { s.port with sdo := t.port.sdo } })

/-- R172, R184: START outside UNSET is refused STATE, with a value out of range or an illegal strap PARAM; else the
parameters are stored and the station enters LISTENING with its bus interface in SYNC_WAIT. -/
def Obligations.StartTestsParametersAndListens : Prop :=
  ∀ (g h r m : Byte) (d : BitVec 16) (a : Byte) (s : State), s.resetHeld = false → s.port.phase = .idle →
    let good := h.toNat ≤ 3 ∧ 1 ≤ r.toNat ∧ r.toNat ≤ 15 ∧ m.toNat ≤ 1 ∧ d.toNat ≤ 4095 ∧ a.toNat ≤ 1 ∧
      s.straps.rate ≠ 3 ∧ s.straps.slice ≠ 3
    (s.mem.st ≠ .unset → ∃ t, exec (.start g h r m d a) s = .next t ∧ s.AnswersOnly t (.refusedState .start)) ∧
    (s.mem.st = .unset → ¬ good → ∃ t, exec (.start g h r m d a) s = .next t ∧ s.AnswersOnly t (.paramStart s.straps)) ∧
    (s.mem.st = .unset → good → s.bus.rx = .off → s.bus.windows = [] → s.filter.receive = none →
      ∃ t p, exec (.start g h r m d a) s = .next t ∧
        (p.group = g ∧ p.heartbeat.val = h.toNat ∧ p.retryLimit = r.toNat ∧ (p.commitMode = .early ↔ m.toNat = 1) ∧
          p.historyDepth = d.toNat ∧ (p.holdAbort = true ↔ a.toNat = 1)) ∧
        Follows { s with
          freeCount := t.freeCount
          params := some p
          mem := { s.mem with st := .listening, learned := none, highBefore := none, listenTimer := none,
                              listenOwed := true, joinWait := none, tick := none }
          bus := { s.bus with rx := .syncWait, offTarget := none, dataFault := false, objFault := false, inhibit := false,
                              objWatch := false, recessiveSince := s.now }
          filter := { receive := none, window := none }
          conf := { s.conf with decision := none }
          swp := { s.swp with idleSince := none }
          port := { s.port.post (.state .listening) with
            phase := .ready, slot := none, response := some (.okStart s.straps), sdo := t.port.sdo } } t)

/-- R173, R118, R101: JOIN in DETACHED takes the station to LISTENING at once, with its journal and its START parameters as
they are; elsewhere it is refused STATE. While an own frame is still finishing its window the bus interface switches on, and
the heartbeat tick runs, up to its end (R42, R112; notes/assumptions/18.md). -/
def Obligations.JoinListensFromDetached : Prop :=
  ∀ s : State, s.resetHeld = false → s.port.phase = .idle →
    (s.mem.st ≠ .detached → ∃ t, exec .join s = .next t ∧ s.AnswersOnly t (.refusedState .join)) ∧
    (s.mem.st = .detached → s.bus.steady = false → ∃ t, exec .join s = .next t ∧
      t.mem = { s.mem with st := .listening, learned := none, highBefore := none, listenTimer := none,
                           listenOwed := true, joinWait := none, tick := if s.ownUnderWay then s.mem.tick else none } ∧
      (s.ownUnderWay = false → t.bus.rx = .syncWait ∧ t.bus.recessiveSince = s.now ∧ t.bus.offTarget = none) ∧
      (s.ownUnderWay = true → t.bus.offTarget = some .syncWait) ∧
      t.port = { s.port.post (.state .listening) with
        phase := .ready, slot := none, response := some (.ok .join), sdo := t.port.sdo } ∧
      s.KeepsFixed t ∧ t.now = s.now ∧ t.dir = s.dir ∧ t.cat = s.cat ∧ t.conf.entries = s.conf.entries ∧
      t.conf.write = s.conf.write ∧ t.arb.grant = s.arb.grant ∧ t.out.entries.length = s.out.entries.length)

/-- R83: SUBMIT's tests in their order; on acceptance the entry is appended at the tail with the counter's tag. -/
def Obligations.SubmitTestsAndAppends : Prop :=
  ∀ (payload : List Byte) (s : State), s.resetHeld = false → s.port.phase = .idle → ∃ t,
    exec (.submit payload) s = .next t ∧
    (if (s.mem.st ≠ .syncing ∧ s.mem.st ≠ .member) ∨ s.dir.frontier ≥ 2 ^ 48 then s.AnswersOnly t (.refusedState .submit)
    else if payload.length = 0 ∨ 240 < payload.length then s.AnswersOnly t (.param 3)
    else if 8 ≤ s.out.entries.length then s.AnswersOnly t .full
    else
      Follows { s with
        freeCount := t.freeCount
        out := { s.out with
          entries := s.out.entries ++ [{ tag := s.out.tagCounter, payload := payload, contentRetries := 0, busyRetries := 0,
                                         staleCount := 0, state := .waiting }]
          tagCounter := if s.out.tagCounter = 65535 then 1 else s.out.tagCounter + 1 }
        port := { s.port with
          phase := .ready, slot := none, response := some (.okTag s.out.tagCounter), sdo := t.port.sdo } } t ∧
      t.HeadFollowsConditions)

/-- R174, R169: READ in UNSET is refused STATE, of GSN 0 PARAM; else the port stays WORKING and its request waits at the
local READ rank, 5. It has arrived at a free port only if no other request waits already (notes/assumptions/15.md). -/
def Obligations.ReadWaitsAtTheArrayPort : Prop :=
  ∀ (g : BitVec 48) (s : State), s.resetHeld = false → s.port.phase = .idle → ∃ t, exec (.read g) s = .next t ∧
    (if s.mem.st = .unset then s.AnswersOnly t (.refusedState .read)
    else if g = 0 then s.AnswersOnly t (.param 4)
    else t = { s with
      freeCount := t.freeCount
      port := { s.port with phase := .working, slot := some (.read g.toNat), response := none, sdo := t.port.sdo }
      arb := { s.arb with localPort := some {
        rank := 5, since := s.now, atFree := s.arb.grant.isNone && s.arb.waiting.isEmpty } }
      swp := { s.swp with quietSince := none } })

/-- R176: STATUS answers at once with the station as it stands, and changes nothing. -/
def Obligations.StatusReportsTheStation : Prop :=
  ∀ s : State, s.resetHeld = false → s.port.phase = .idle → ∃ t r, exec .status s = .next t ∧
    s.AnswersOnly t (.status r) ∧ r.st = s.mem.st ∧ r.frontier = s.dir.frontier ∧
    (∀ w, s.dir.window = some w → r.low = w.low ∧ r.high = w.high) ∧ (s.dir.window = none → r.low = 0 ∧ r.high = 0) ∧
    r.gapCount = s.dir.gapCount ∧ r.lostCount = s.dir.lostCount ∧ r.balance = s.swp.balance ∧
    r.position = s.swp.position ∧ r.cls = s.temp.cls ∧ r.pendingOccupancy = s.conf.entries.length ∧
    r.outboundOccupancy = s.out.entries.length ∧ r.noticeCount = s.port.notices.length ∧ r.lostNotices = s.port.lost

/-- R177, R115: PEERS answers at once with all 16 entries in order of station number, the own entry as R115 makes it, and
changes nothing. The model's choice (notes/assumptions/23.md): the time left of a quiet mark is rounded down to whole
microseconds. -/
def Obligations.PeersReportsAllEntries : Prop :=
  ∀ s : State, s.resetHeld = false → s.port.phase = .idle → ∃ t entries, exec .peers s = .next t ∧
    s.AnswersOnly t (.peers entries) ∧ entries.length = 16 ∧ ∀ (k : Station) (r : PeerReport), entries[k.val]? = some r →
      (k ≠ s.straps.station → r = {
        status := (s.mem.peer k).status, heardFrontier := (s.mem.peer k).heardFrontier,
        heardLow := (s.mem.peer k).heardLow, heardMember := (s.mem.peer k).heardMember,
        heardRetained := (s.mem.peer k).heardRetained, missed := (s.mem.peer k).missed,
        quietLeft := (s.mem.peer k).quiet.map fun e => (e - s.now) / 10, divergence := (s.mem.peer k).divergence }) ∧
      (k = s.straps.station → r = {
        status := if s.mem.st = .syncing ∨ s.mem.st = .member then .active else .absent
        heardFrontier := if s.dir.frontier = 0 then none else some s.dir.frontier
        heardLow := s.dir.window.map Window.low
        heardMember := none, heardRetained := none, missed := 0, quietLeft := none, divergence := none })

/-- R180: NOTICE answers at once: the oldest notice is removed, the lost-notice count is reported and set to 0. -/
def Obligations.NoticeTakesTheOldest : Prop :=
  ∀ s : State, s.resetHeld = false → s.port.phase = .idle → ∃ t, exec .notice s = .next t ∧
    t = { s with
      freeCount := t.freeCount
      port := {
        phase := .ready, slot := none, notices := s.port.notices.tail, lost := 0, sdo := t.port.sdo,
        response := some (match s.port.notices with
          | [] => .empty s.port.lost
          | n :: _ => .notice s.port.lost n) } }

/-- R116, R158, R171, R173: LEAVE and HOLD taken in SYNCING or MEMBER begin LEAVING with reason FAULT_EXIT, STOP or HOLD, the
leave timer running for three heartbeat periods and the LEAVE offered. -/
def Obligations.LeaveAndHoldBeginLeaving : Prop :=
  ∀ (c : Instr) (name : Command) (reason : LeaveReason) (s : State), s.resetHeld = false → s.port.phase = .idle →
    (s.mem.st = .syncing ∨ s.mem.st = .member) →
    s.sel.inFlight = none → s.bus.rx ≠ .preWindow → s.bus.rx ≠ .window →
    ((c = .leave ∧ name = .leave ∧ reason = if s.mem.faultFlag then .faultExit else .stop) ∨
     (c = .hold ∧ name = .hold ∧ reason = .hold)) →
    ∃ t, exec c s = .next t ∧
      t.mem = { s.mem with st := .leaving, presence := none, leave := some {
        reason := reason, voided := 0, timer := some (s.now + 3 * s.heartbeat), expired := false } } ∧
      t.sel.membership = some (.leave reason) ∧
      t.port = { s.port.post (.state .leaving) with
        phase := .ready, slot := none, response := some (.ok name), sdo := t.port.sdo } ∧
      s.KeepsFixed t ∧ t.now = s.now ∧ t.dir = s.dir ∧ t.bus = s.bus ∧ t.filter = s.filter ∧ t.conf = s.conf ∧
      t.cat.responder = s.cat.responder ∧ t.arb.grant = s.arb.grant ∧ t.arb.responder = none ∧
      t.out.entries.map OutEntry.atRest = s.out.entries.map OutEntry.atRest

/-- R118, R171, R173, R158: LEAVE in FAULT takes the station to DETACHED at once, without a frame; in every other state but
SYNCING and MEMBER, LEAVE and HOLD are refused STATE, HOLD in FAULT too. R42, R112: while an own frame is still finishing its
window the heartbeat tick runs on. -/
def Obligations.LeaveAndHoldOutsideTheGroup : Prop :=
  ∀ s : State, s.resetHeld = false → s.port.phase = .idle → s.mem.st ≠ .syncing → s.mem.st ≠ .member →
    (∃ t, exec .hold s = .next t ∧ Follows { s with
      freeCount := t.freeCount
      port := { s.port with phase := .ready, slot := none, response := some (.refusedState .hold), sdo := t.port.sdo } } t) ∧
    (s.mem.st ≠ .fault → ∃ t, exec .leave s = .next t ∧ Follows { s with
      freeCount := t.freeCount
      port := { s.port with phase := .ready, slot := none, response := some (.refusedState .leave), sdo := t.port.sdo } } t) ∧
    (s.mem.st = .fault → ∃ t, exec .leave s = .next t ∧ t.mem = { s.mem with
        st := .detached, leave := none, tick := if s.ownUnderWay then s.mem.tick else none } ∧
      (s.ownUnderWay = false → t.bus.rx = .off) ∧
      t.port = { s.port.post (.state .detached) with
        phase := .ready, slot := none, response := some (.ok .leave), sdo := t.port.sdo } ∧
      s.KeepsFixed t ∧ t.now = s.now ∧ t.dir = s.dir ∧ t.cat = s.cat ∧ t.conf.entries = s.conf.entries ∧
      t.conf.drain = s.conf.drain)

/-- R116, R171: a LEAVE or HOLD that arrives in SYNCING or MEMBER while an own frame is in flight or a window is awaited or
open keeps the port WORKING and waits for the end of that window; then it is judged in the state it finds. The model's choice
(notes/assumptions/34.md): the windows that have still to end are counted, up to the own frame's or else the newest; each window's
end, own, judged or overlapping, lowers the count by one, and a lost arbitration or the entry to FAULT ends the wait. -/
def Obligations.DeferredDepartureIsTakenLater : Prop :=
  (∀ (c : Instr) (k : SlotCommand) (s : State), s.resetHeld = false → s.port.phase = .idle →
    (s.mem.st = .syncing ∨ s.mem.st = .member) →
    (s.sel.inFlight ≠ none ∨ s.bus.rx = .preWindow ∨ s.bus.rx = .window) →
    ((c = .leave ∧ k = .leave) ∨ (c = .hold ∧ k = .hold)) →
    ∃ t, exec c s = .next t ∧ t = { s with
      freeCount := t.freeCount
      port := { s.port with phase := .working, slot := some k, response := none, sdo := t.port.sdo }
      mem := { s.mem with departWait :=
        if s.sel.inFlight = none then s.bus.windows.length
        else match s.bus.windows.findIdx? WindowRun.own with
          | some i => i + 1
          | none => s.bus.windows.length + 1 } }) ∧
  (∀ s : State, s.resetHeld = false →
    (0 < s.mem.departWait ∨ (s.port.slot ≠ some .leave ∧ s.port.slot ≠ some .hold)) →
    exec .deferredCommandTaken s = .next s) ∧
  (∀ (s : State) (w : WindowRun) (rest : List WindowRun) (lowRun : Nat), s.resetHeld = false →
    s.bus.windows = w :: rest → w.opened = true →
    ∃ t, exec (.windowEnd lowRun) s = .next t ∧
      (t.mem.departWait = s.mem.departWait - 1 ∨ (t.mem.st = .fault ∧ t.mem.departWait = 0)) ∧
      (w.overlapping = true ∨ s.conf.budget ≤ 14 → t.mem.departWait = s.mem.departWait - 1)) ∧
  (∀ (s : State) (r : ReceiveRecord) (f : InFlight), s.resetHeld = false → s.bus.rx = .frame → s.filter.receive = some r →
    r.own = true → r.readback = false → s.sel.inFlight = some f →
    ∃ t, exec .arbitrationLost s = .next t ∧ t.mem.departWait = 0) ∧
  (∀ s : State, s.resetHeld = false → (s.port.slot = some .leave ∨ s.port.slot = some .hold) →
    (s.mem.st = .syncing ∨ s.mem.st = .member) → s.mem.departWait = 0 →
    ∃ t reason, exec .deferredCommandTaken s = .next t ∧
      reason = (if s.port.slot = some .hold then .hold else if s.mem.faultFlag then .faultExit else .stop) ∧
      t.mem = { s.mem with st := .leaving, presence := none, leave := some {
        reason := reason, voided := 0, timer := some (s.now + 3 * s.heartbeat), expired := false } } ∧
      t.sel.membership = some (.leave reason) ∧
      t.port = { s.port.post (.state .leaving) with
        phase := .ready, slot := none
        response := some (.ok (if s.port.slot = some .hold then .hold else .leave)) } ∧
      s.KeepsFixed t ∧ t.now = s.now ∧ t.dir = s.dir ∧ t.bus = s.bus ∧ t.conf = s.conf) ∧
  (∀ s : State, s.resetHeld = false → s.mem.st = .fault → s.mem.departWait = 0 → s.port.slot = some .leave →
    ∃ t, exec .deferredCommandTaken s = .next t ∧ t.mem.st = .detached ∧ t.port.response = some (.ok .leave) ∧
      t.port.phase = .ready) ∧
  (∀ s : State, s.resetHeld = false → s.mem.st = .fault → s.mem.departWait = 0 → s.port.slot = some .hold →
    ∃ t, exec .deferredCommandTaken s = .next t ∧ Follows { s with
      port := { s.port with phase := .ready, slot := none, response := some (.refusedState .hold) } } t)

/-- R163, R171: RELEASE in HELD takes the station to RESUMING at once and requests the exit pass at rank 2; a running internal
pass is abandoned when START turned hold-abort on and left to finish otherwise. Elsewhere RELEASE is refused STATE. -/
def Obligations.ReleaseRequestsTheExitPass : Prop :=
  ∀ s : State, s.resetHeld = false → s.port.phase = .idle →
    (s.mem.st ≠ .held → ∃ t, exec .release s = .next t ∧ s.AnswersOnly t (.refusedState .release)) ∧
    (s.mem.st = .held → ∃ t, exec .release s = .next t ∧ t.mem = { s.mem with st := .resuming } ∧
      t.swp.holdTimer = none ∧ t.swp.passState = none ∧ t.swp.balance = s.swp.balance ∧
      t.swp.position = s.swp.position ∧ (∃ q, t.arb.sweep = some q ∧ q.rank = 2 ∧ q.since = s.now) ∧
      (s.portOp = some .internalPass → s.holdAbort = true → t.arb.grant = none) ∧
      ((s.portOp ≠ some .internalPass ∨ s.holdAbort = false) → t.arb.grant = s.arb.grant) ∧
      t.arb.responder = s.arb.responder ∧ t.arb.localPort = s.arb.localPort ∧
      t.port = { s.port.post (.state .resuming) with
        phase := .ready, slot := none, response := some (.ok .release), sdo := t.port.sdo } ∧
      s.KeepsFixed t ∧ t.now = s.now ∧ t.dir = s.dir ∧ t.bus = s.bus ∧ t.conf = s.conf ∧ t.cat = s.cat)

/-- R169 and 11_formats.md 11.4: a malformed command is answered PARAM at once with its opening byte, one that opens with
START's code with the straps as well, and changes nothing else. -/
def Obligations.MalformedCommandAnswersParam : Prop :=
  ∀ (opening : Byte) (params : List Byte) (s : State), s.resetHeld = false → s.port.phase = .idle →
    ∃ t, exec (.malformedCommand opening params) s = .next t ∧
      s.AnswersOnly t (if opening = 1 then .paramStart s.straps else .param opening)

/-- R168, R170, R185: a collect transaction shifts out the port status first. In READY the response follows and, when it
reaches its end, the buffer is emptied and the phase is IDLE; a shorter one leaves it. In IDLE and WORKING it shifts out NONE
and changes nothing. -/
def Obligations.CollectEmptiesTheResponse : Prop :=
  ∀ (n : Nat) (s : State), s.resetHeld = false →
    (∀ a, s.port.phase = .ready → s.port.response = some a → ∃ t, exec (.collect n) s = .next t ∧
      t = { s with
        freeCount := t.freeCount
        port := if a.bytes.length ≤ n then { s.port with phase := .idle, response := none, sdo := t.port.sdo }
          else { s.port with sdo := t.port.sdo } } ∧
      t.port.sdo.length = n + 1 ∧ t.port.sdo.head? = some (statusByte s) ∧
      (t.port.sdo.drop 1).take a.bytes.length = a.bytes.take n) ∧
    (s.port.phase ≠ .ready → ∃ t, exec (.collect n) s = .next t ∧
      t = { s with freeCount := t.freeCount, port := { s.port with sdo := t.port.sdo } } ∧
      t.port.sdo.length = n + 1 ∧ t.port.sdo.head? = some (statusByte s) ∧
      (t.port.sdo.drop 1).take 4 = List.replicate (min n 4) 0)

/-! ## The record bus -/

/-- R29, R39, R38, R101, R112: SYNC_WAIT ends after 40 bt of recessive line and FAULT_WAIT after 64 bt, SEPARATION at its end;
each leads to IDLE, where the idle run starts; the first two start the heartbeat tick and an owed listen timer. With the
data-line fault mark set SEPARATION leads to FAULT_WAIT. The model's readings: FAULT_WAIT ends on an idle line and leaves the
watch of the objection line as it stood (notes/assumptions/26.md), and its count starts anew at the entry from SEPARATION
(notes/assumptions/46.md). -/
def Obligations.WaitsOnTheLineEndInIdle : Prop :=
  ∀ s : State, s.resetHeld = false →
    (s.bus.rx = .syncWait → ∃ t, exec .syncWaitEnd s = .next t ∧
      let n := max s.now (s.bus.recessiveSince + s.bt 40)
      Follows { s with
        now := n
        bus := { s.bus with rx := .idle }
        swp := { s.swp with idleSince := some (s.swp.idleSince.getD n) }
        mem := { s.mem with
          tick := some (s.mem.tick.getD (n + s.heartbeat))
          listenTimer := if s.mem.listenOwed then some (n + 3 * s.heartbeat) else s.mem.listenTimer
          listenOwed := false } } t) ∧
    (s.bus.rx = .faultWait → ∃ t, exec .faultWaitEnd s = .next t ∧
      let n := max s.now (s.bus.recessiveSince + s.bt 64)
      Follows { s with
        now := n
        bus := { s.bus with rx := .idle, dataFault := false, inhibit := false }
        filter := { receive := none, window := none }
        swp := { s.swp with idleSince := some (s.swp.idleSince.getD n) }
        mem := { s.mem with
          tick := some (s.mem.tick.getD (n + s.heartbeat))
          listenTimer := if s.mem.listenOwed then some (n + 3 * s.heartbeat) else s.mem.listenTimer
          listenOwed := false } } t) ∧
    (s.bus.rx = .separation → ∃ t, exec .separationEnd s = .next t ∧
      let n := max s.now s.bus.sepEnd
      Follows { s with
        now := n
        bus := if s.bus.dataFault then { s.bus with rx := .faultWait, recessiveSince := n } else { s.bus with rx := .idle }
        swp := { s.swp with idleSince := if s.bus.dataFault then none else some (s.swp.idleSince.getD n) } } t)

/-- R30, R44, R97: another station's frame-start bit in IDLE, PRE_WINDOW, WINDOW or SEPARATION begins a frame with an empty
receive record and ends a choice. The model's choice (notes/assumptions/38.md): in SYNC_WAIT and FAULT_WAIT it is a dominant
bit, and the recessive count (R29, R39) begins again at its end; in the rest of a window or separation in which a data-line fault
was found it begins no frame (notes/assumptions/53.md). -/
def Obligations.FrameStartBeginsAFrame : Prop :=
  ∀ s : State, s.resetHeld = false →
    ((s.bus.rx = .idle ∨ s.bus.rx = .preWindow ∨ s.bus.rx = .window ∨ s.bus.rx = .separation) →
      s.bus.offTarget = none → s.bus.dataFault = false → ∃ t, exec .frameStart s = .next t ∧ t.sel.choice = none ∧
        Follows { s with
          bus := { s.bus with rx := .frame, frameStart := s.now, objWatch := true }
          filter := { s.filter with
            receive := some { bytes := [], framing := [], truncated := false, own := false, readback := false } }
          swp := { s.swp with idleSince := none } } t) ∧
    ((s.bus.rx = .syncWait ∨ s.bus.rx = .faultWait) →
      exec .frameStart s = .next { s with bus := { s.bus with recessiveSince := s.now + s.bt 1 } }) ∧
    ((s.bus.rx = .preWindow ∨ s.bus.rx = .window ∨ s.bus.rx = .separation) → s.bus.dataFault = true →
      exec .frameStart s = .next s)

/-- R30, R86, R97: the chosen frame starts on an idle bus; a RECORD is stamped with the frontier as it stands and its entry
becomes IN_FLIGHT; any other frame goes as it was offered, and its offer is consumed. -/
def Obligations.OwnFrameStartsTheChoice : Prop :=
  ∀ s : State, s.resetHeld = false → s.bus.rx = .idle → s.bus.offTarget = none → s.bus.inhibit = false →
    s.sel.inFlight = none →
    (∀ h rest, s.sel.choice = some .outbound → s.sel.record = true → (s.mem.st = .syncing ∨ s.mem.st = .member) →
      s.out.entries = h :: rest → ∃ t, exec .ownFrameStart s = .next t ∧
        t.sel.inFlight = some { sender := .outbound, body := .record s.dir.frontier h.tag h.payload, discard := false } ∧
        t.out = { s.out with entries := { h with state := .inFlight s.dir.frontier } :: rest } ∧ t.sel.record = false ∧
        t.bus = { s.bus with rx := .frame, frameStart := s.now, objWatch := true } ∧
        t.filter = { s.filter with
          receive := some { bytes := [], framing := [], truncated := false, own := true, readback := false } } ∧
        s.KeepsFixed t ∧ t.now = s.now ∧ t.dir = s.dir ∧ t.conf = s.conf ∧ t.mem = s.mem ∧ t.cat = s.cat ∧
        t.port = s.port) ∧
    (∀ who b, who ≠ .outbound → s.sel.choice = some who → s.sel.offer who = some b → kindAllowed s.mem.st b = true →
      ∃ t, exec .ownFrameStart s = .next t ∧
        t.sel.inFlight = some { sender := who, body := b, discard := false } ∧ t.sel.offer who = none ∧
        t.bus = { s.bus with rx := .frame, frameStart := s.now, objWatch := true } ∧
        t.filter = { s.filter with
          receive := some { bytes := [], framing := [], truncated := false, own := true, readback := false } } ∧
        t.out.entries.map OutEntry.atRest = s.out.entries.map OutEntry.atRest ∧
        s.KeepsFixed t ∧ t.now = s.now ∧ t.dir = s.dir ∧ t.conf = s.conf ∧ t.mem = s.mem ∧ t.cat = s.cat ∧
        t.port = s.port)

/-- R31, R32, R87, R98: a contender that loses goes on as a receiver; its frame returns to the offers: a RECORD's entry keeps
its counts, a FETCH names the run as it stands while its responder is a candidate
(R125), every other frame returns unchanged. A readback failure marks the
frame and changes nothing else. The model's readings: a QUIET that is no longer due is withdrawn at its return
(notes/assumptions/43.md, DEDUCED; R98 and R150 only say that a lost offer returns); a LEAVE whose timer has expired in flight
makes no further attempt, and its loss ends the group part (notes/assumptions/28.md); a PRESENCE returns unchanged too, whatever has
changed while it was in flight, and is made anew only where its values change in the event of the loss or later (R107,
notes/assumptions/54.md, DEDUCED). -/
def Obligations.LostArbitrationReturnsTheFrame : Prop :=
  ∀ (s : State) (r : ReceiveRecord), s.resetHeld = false → s.bus.rx = .frame → s.filter.receive = some r →
    r.own = true → r.readback = false →
    (exec .readbackFailure s = .next { s with filter := { s.filter with receive := some { r with readback := true } } }) ∧
    (∀ f, s.sel.inFlight = some f → f.discard = false → ∃ t, exec .arbitrationLost s = .next t ∧
      t.sel.inFlight = none ∧ t.filter = { s.filter with receive := some { r with own := false } } ∧ t.bus = s.bus ∧
      ((∀ l, s.mem.leave = some l → l.expired = false) →
        (∀ h rest, f.sender = .outbound → s.out.entries = h :: rest →
          t.out.entries.map OutEntry.atRest = ({ h with state := .waiting } :: rest).map OutEntry.atRest) ∧
        (f.sender = .sweep → t.sel.sweep = if s.inGroup = true ∧ 6 ≤ s.swp.balance ∧ s.swp.balance ≤ 7 then some f.body else none) ∧
        (f.sender = .responder → t.sel.responder = some f.body) ∧
        (f.sender = .requester → s.inGroup = false → t.sel.requester = some f.body) ∧
        (∀ c k, f.sender = .requester → s.inGroup = true → s.cat.requester = some c → c.phase = .offered k →
          c.outstanding s.dir ≠ [] → k ∈ s.candidates (c.cut s.dir).last →
          t.sel.requester = some (.fetch k (c.cut s.dir).first (c.cut s.dir).count)) ∧
        (f.sender = .membership → (∀ a b c d, f.body ≠ .presence a b c d) → t.sel.membership = some f.body) ∧
        (∀ a b c d, f.sender = .membership → f.body = .presence a b c d → s.inGroup = true →
          t.sel.membership = some (if presenceNow t = presenceNow s then f.body else presenceNow t))) ∧
      (∀ l, s.mem.leave = some l → l.expired = true → t.sel.membership = none ∧ t.conf.drain = true) ∧
      s.KeepsFixed t ∧ t.now = s.now ∧ t.dir.window = s.dir.window ∧ t.dir.frontier = s.dir.frontier)

/-- R41, R118: a received arbitration byte with this station's number takes the station to FAULT: the interface is STOPPED,
the offers, contexts and peer entries are cleared, the drain is asked for, and DUPLICATE_STATION is posted first. R42, R112:
while the window of an own frame has still to end, the interface first finishes it and the heartbeat tick runs on; at the end of
that window the interface goes where it was switched, and the tick stops. -/
def Obligations.DuplicateStationLeadsToFault : Prop :=
  (∀ (s : State) (r : ReceiveRecord), s.resetHeld = false → s.onBus = true → s.bus.rx = .frame → s.bus.offTarget = none →
    s.filter.receive = some r → r.own = false →
    ∃ t, exec .duplicateStation s = .next t ∧ t.mem.st = .fault ∧ t.cat = { requester := none, responder := none } ∧
      ((∀ w ∈ s.bus.windows, w.own = false) → t.bus.rx = .stopped ∧ t.bus.windows = [] ∧ t.bus.offTarget = none ∧
        t.filter = { receive := none, window := none } ∧ t.mem.tick = none) ∧
      ((∃ w ∈ s.bus.windows, w.own = true) → t.bus.windows = s.bus.windows.filter WindowRun.own ∧
        (t.bus.rx = .window ∨ t.bus.rx = .preWindow) ∧ t.bus.offTarget = some .stopped ∧
        t.filter = { receive := none, window := s.filter.window } ∧ t.mem.tick = s.mem.tick) ∧
      (∀ k, t.mem.peer k = Peer.reset) ∧ t.mem.presence = none ∧ t.mem.departWait = 0 ∧ t.conf.drain = true ∧
      t.conf.entries = s.conf.entries.filter PendEntry.isConfirmed ∧ t.sel.membership = none ∧
      (s.sel.inFlight = none → t.out.entries = []) ∧
      (s.port.notices.length < 32 → s.port.notices ++ [.duplicateStation] <+: t.port.notices) ∧
      s.KeepsFixed t ∧ t.now = s.now ∧ t.dir.window = s.dir.window ∧ t.dir.frontier = s.dir.frontier) ∧
  (∀ (s : State) (w : WindowRun) (lowRun : Nat) (target : RxState), s.resetHeld = false → s.bus.windows = [w] →
    w.opened = true → w.own = true → s.filter.receive = none → s.bus.offTarget = some target → s.inGroup = false →
    s.mem.st ≠ .founding → s.mem.st ≠ .joining →
    ∃ t, exec (.windowEnd lowRun) s = .next t ∧ t.now = max s.now w.due ∧ t.bus.rx = target ∧ t.bus.windows = [] ∧
      t.bus.offTarget = none ∧ t.mem.tick = none ∧ t.filter = { receive := none, window := none } ∧
      t.sel.inFlight = none ∧ t.mem.st = s.mem.st ∧ s.KeepsFixed t)

/-- What a member decides of a frame at its end, and the pull that follows from it (R36, R61 to R67): the decision, whether a
pending entry is appended, and the width. -/
def frameDecision (s : State) : Classified → Option DecisionRecord × Nat
  | .foreign => (none, 0)
  | .failure .addressedElsewhere => (some ⟨.addressedElsewhere, false⟩, 0)
  | .failure _ => (some ⟨.object .content, false⟩, 4)
  | .sound _ _ _ .addressedElsewhere => (some ⟨.addressedElsewhere, false⟩, 0)
  | .sound _ (.record g _ _) _ .general =>
    if g < s.dir.frontier then (some ⟨.object .stale, false⟩, 12)
    else if 4 ≤ s.conf.entries.length then (some ⟨.object .full, false⟩, 24)
    else (some ⟨.noObjection, true⟩, 0)
  | .sound _ (.replay _ g _ _ _) _ .addressedHere =>
    if ∃ e ∈ s.conf.entries, e.gsn = g then (some ⟨.noObjection, false⟩, 0)
    else if 4 ≤ s.conf.entries.length then (some ⟨.object .full, false⟩, 24)
    else (some ⟨.noObjection, true⟩, 0)
  | .sound _ _ _ _ => (some ⟨.noObjection, false⟩, 0)

/-- R33 to R36, R44, R50 to R54, R59, R61 to R67: at a frame end, whole or truncated, the frame is classified, a member decides
its objection and keeps a record it does not object to, and the window is due in 2 bt; a frame that ends while a window is
open or awaited is not judged. An own frame read back well is the frame that was sent (notes/assumptions/5.md). The model's reading
(notes/assumptions/40.md): a truncated frame ends no earlier than a 12-bt recessive run behind its complete bytes can end. R27: the
framing errors are those of the levels sampled at the start and stop bits. -/
def Obligations.FrameEndDecidesTheObjection : Prop :=
  ∀ (cut : Bool) (bytes : List Byte) (framing : List FramingLevels) (s : State) (r : ReceiveRecord), s.resetHeld = false →
    s.bus.rx = .frame → s.filter.receive = some r →
    let f := s.ended r bytes (framingErrors framing) cut
    let c := f.classify (s.params.map StartParams.group) s.straps.station
    (r.own = true ∨ f.carriesNumber s.straps.station = false) →
    ∃ t, exec (if cut then .frameTruncated bytes framing else .frameEnd bytes framing) s = .next t ∧
      t.now = max s.now (s.bus.frameStart + (if cut then s.bt (truncationLength bytes framing) else s.bt (1 + 10 * f.bytes.length))) ∧
      t.bus.rx = .preWindow ∧ t.filter.receive = none ∧ s.KeepsFixed t ∧ t.dir = s.dir ∧ t.port = s.port ∧
      t.mem = s.mem ∧ t.cat = s.cat ∧ t.conf.budget = s.conf.budget ∧ t.conf.write = s.conf.write ∧
      t.conf.drain = s.conf.drain ∧
      (s.bus.windows = [] → ∃ w, t.bus.windows = [w] ∧ w.opened = false ∧ w.overlapping = false ∧ w.own = r.own ∧
        w.readback = r.readback ∧ w.due = t.now + s.bt 2 ∧ t.filter.window = some c ∧
        (s.inGroup = false → t.conf.decision = none ∧ t.conf.entries = s.conf.entries ∧ w.pulled = 0) ∧
        (s.inGroup = true → t.conf.decision = (frameDecision s c).1 ∧ w.pulled = (frameDecision s c).2 ∧
          (∀ d, t.conf.decision = some d → d.hasEntry = false → t.conf.entries = s.conf.entries) ∧
          (t.conf.decision = none → t.conf.entries = s.conf.entries) ∧
          (∀ k g tag p chk sc, c = .sound k (.record g tag p) chk sc → w.pulled = 0 → sc = .general →
            t.conf.entries = s.conf.entries ++ [{
              gsn := g, live := true, origin := k, tag := tag, payload := p, check := chk,
              status := .awaitingWindow false, own := r.own }]) ∧
          (∀ k q g o tag p chk, c = .sound k (.replay q g o tag p) chk .addressedHere →
            t.conf.decision = some ⟨.noObjection, true⟩ → t.conf.entries = s.conf.entries ++ [{
              gsn := g, live := false, origin := o, tag := tag, payload := p, check := chk,
              status := .awaitingWindow false, own := r.own }]))) ∧
      (s.bus.windows ≠ [] → ∃ w, t.bus.windows = s.bus.windows ++ [w] ∧ w.opened = false ∧ w.overlapping = true ∧
        w.own = r.own ∧ w.pulled = 0 ∧ w.due = t.now + s.bt 2 ∧ t.filter.window = s.filter.window ∧ t.conf = s.conf)

/-- R34, R50 to R54: a truncated frame is never sound: foreign if its group byte is complete, neither it nor the arbitration
byte has a framing error, and it names another group; else a content failure of general scope. A whole frame is foreign by the
same condition; with a framing error, a readback failure of this station's own, or a wrong check it is a content failure of
general scope; with a good check and no body of its kind with every field in range it is a content failure of the scope that R52
gives: of a GONE or REPLAY whose first body byte is a station number, that station's, else general. The model's choice
(notes/assumptions/47.md): an own frame with a readback failure that reads as another group is foreign. -/
def Obligations.TruncatedFrameIsAContentFailure : Prop :=
  (∀ (f : ReceiveRecord) (group : Option Byte) (me : Station), f.truncated = true →
    (∀ g, f.bytes[1]? = some g → 0 ∉ f.framing → 1 ∉ f.framing → group ≠ some g → f.classify group me = .foreign) ∧
    ((f.bytes.length < 2 ∨ 0 ∈ f.framing ∨ 1 ∈ f.framing ∨ (∃ g, f.bytes[1]? = some g ∧ group = some g)) →
      f.classify group me = .failure .general)) ∧
  (∀ (f : ReceiveRecord) (group : Option Byte) (me : Station) (arb g l hi lo : Byte) (body : List Byte),
    f.truncated = false → f.bytes = arb :: g :: l :: (body ++ [hi, lo]) → body.length = l.toNat →
    let otherGroup := 0 ∉ f.framing ∧ 1 ∉ f.framing ∧ group ≠ some g
    let kind := arb.toNat / 16
    let check := frameCheck (arb :: g :: l :: body) = hi ++ lo
    (otherGroup → f.classify group me = .foreign) ∧
    (¬ otherGroup → (f.framing ≠ [] ∨ (f.own = true ∧ f.readback = true) ∨ ¬ check) →
      f.classify group me = .failure .general) ∧
    (¬ otherGroup → f.framing = [] → (f.own = false ∨ f.readback = false) → check →
      (∀ b : FrameBody, b.inRange = true → b.kind = kind → b.bytes ≠ body) →
      f.classify group me = .failure (match body.head? with
        | some r => if (kind = 5 ∨ kind = 6) ∧ r.toNat < 16 then
            (if r.toNat = me.val then .addressedHere else .addressedElsewhere) else .general
        | none => .general)))

/-- R36: the window opens when it is due and lasts 32 bt; the objection driver pulls for the width of the decided class and
releases it at its end. -/
def Obligations.WindowOpensAndThePullEnds : Prop :=
  (∀ (s : State) (before after : List WindowRun) (w : WindowRun), s.resetHeld = false →
    s.bus.windows = before ++ w :: after → (∀ v ∈ before, v.opened = true) → w.opened = false →
    let n := max s.now w.due
    ∃ t pull, exec .windowOpen s = .next t ∧
      (w.pulled = 0 → pull = s.bus.pull) ∧
      (∀ k e, w.pulled ≠ 0 → s.conf.decision = some ⟨.object k, e⟩ → pull = some { cls := k, ends := n + s.bt k.width }) ∧
      Follows { s with
        now := n
        bus := { s.bus with
          rx := if s.bus.rx = .preWindow then .window else s.bus.rx
          windows := before ++ { w with opened := true, due := n + s.bt 32 } :: after
          pull := pull }
        swp := if s.bus.rx = .preWindow then { s.swp with idleSince := none } else s.swp } t) ∧
  (∀ (s : State) (p : Pull), s.resetHeld = false → s.bus.pull = some p →
    exec .objectionPullEnd s = .next { s with now := max s.now p.ends, bus := { s.bus with pull := none } })

/-- R6, R7, R8, R14, R18, R38, R68, R74: a window closed with NONE confirms the entry that awaits it. A live record, a peer's or
this station's own, moves frontier and window up to its GSN, alone into an empty window; its slot is FILLING, or COMMITTED when
it was written early, COMMITTED being posted at once for an own one and at no other confirmation. GAP_OPENED is posted for the GSNs
passed over, LOST for the stretches retired from GAP (R7, R20), which leave the catch-up run and its answers (R132). A REPLAY
fills a slot in GAP, is declined by any other, and makes the TENTATIVE slot of an early write COMMITTED; a fill is reported at
once without a requester context (R127). A context of whose run nothing is left outstanding ends, and reports what it received
(R133). The entry is CONFIRMED, and gone where nothing is left to write; the budget is cleared, the interface is in SEPARATION for
4 bt. -/
def Obligations.WindowEndConfirmsALiveRecord : Prop :=
  ∀ (s : State) (w : WindowRun) (e : PendEntry) (k : Station), s.resetHeld = false →
    s.bus.rx = .window → s.bus.windows = [w] → w.opened = true → w.overlapping = false → w.pulled = 0 →
    s.bus.dataFault = false → s.bus.offTarget = none → (s.mem.st = .syncing ∨ s.mem.st = .member) →
    s.conf.decision = some ⟨.noObjection, true⟩ → s.conf.entries.find? (fun x => !x.isConfirmed) = some e →
    let info : RecordInfo := { origin := e.origin, tag := e.tag, length := e.payload.length, check := e.check }
    let without := s.conf.entries.filter fun x => x.gsn != e.gsn
    let confirmed := replaceEntry e.gsn { e with status := .confirmed } s.conf.entries
    let settled := fun t : State => t.now = max s.now w.due ∧ t.conf.budget = 0 ∧ t.conf.decision = none ∧
      t.bus.rx = .separation ∧ t.bus.sepEnd = t.now + s.bt 4 ∧ t.bus.windows = [] ∧ t.filter.window = none ∧ s.KeepsFixed t
    (e.live = true → s.filter.window = some (.sound k (.record e.gsn e.tag e.payload) e.check .general) →
      s.dir.frontier ≤ e.gsn → (∀ v, s.dir.window = some v → s.dir.frontier = v.high + 1) →
      let low := match s.dir.window with
        | some v => max v.low (e.gsn - 4095)
        | none => e.gsn
      ∃ t, exec (.windowEnd 0) s = .next t ∧ settled t ∧ t.dir.frontier = e.gsn + 1 ∧
        t.dir.window = some { low := low, high := e.gsn } ∧
        (e.status ≠ .writtenEarly → t.conf.entries = confirmed ∧ t.dir.held e.gsn = some (.filling e.gsn info)) ∧
        (e.status = .writtenEarly → t.conf.entries = without ∧ t.dir.held e.gsn = some (.committed e.gsn info)) ∧
        (k ≠ s.straps.station → w.own = false →
          (t.mem.peer k).heardFrontier = some (e.gsn + 1) ∧ (t.mem.peer k).status = .active) ∧
        (w.own = true → t.sel.inFlight = none) ∧
        (allPosted s t → ∀ tag g, .committed tag g ∈ added s t ↔
          e.status = .writtenEarly ∧ e.origin = s.straps.station ∧ tag = e.tag ∧ g = e.gsn) ∧
        opensAndRetires s t low (match s.dir.window with | some _ => max s.dir.frontier low | none => e.gsn) e.gsn ∧
        (∀ c, t.cat.requester = some c → ∀ g, retiredGap s.dir low g →
          g ∉ c.run ∧ ∀ j answered dl, c.phase = .awaiting j answered dl → g ∉ answered) ∧
        (∀ c, s.cat.requester = some c → c.received.Pairwise (· < ·) → c.outstanding t.dir = [] →
          contextEnds s t (· ∈ c.received))) ∧
    (∀ r, e.live = false → w.own = false →
      s.filter.window = some (.sound k (.replay r e.gsn e.origin e.tag e.payload) e.check .addressedHere) →
      let filled := (e.status ≠ .writtenEarly ∧ s.dir.held e.gsn = some (.gap e.gsn)) ∨
        (e.status = .writtenEarly ∧ ∃ i, s.dir.held e.gsn = some (.tentative e.gsn i))
      ∃ t, exec (.windowEnd 0) s = .next t ∧ settled t ∧ t.dir.frontier = s.dir.frontier ∧ t.dir.window = s.dir.window ∧
        (e.status ≠ .writtenEarly → s.dir.held e.gsn = some (.gap e.gsn) →
          t.conf.entries = confirmed ∧ t.dir.held e.gsn = some (.filling e.gsn info)) ∧
        (¬ filled → t.conf.entries = without ∧ (s.dir.held e.gsn ≠ some (.gap e.gsn) → t.dir.held e.gsn = s.dir.held e.gsn)) ∧
        (∀ i, e.status = .writtenEarly → s.dir.held e.gsn = some (.tentative e.gsn i) →
          t.conf.entries = without ∧ t.dir.held e.gsn = some (.committed e.gsn info)) ∧
        (r = s.straps.station → filled → s.cat.requester = none → allPosted s t →
          ∀ g n, .gapFilled g n ∈ added s t ↔ g = e.gsn ∧ n = 1) ∧
        (∀ c, r = s.straps.station → s.cat.requester = some c → c.received.Pairwise (· < ·) → c.outstanding t.dir = [] →
          contextEnds s t fun g => g ∈ c.received ∨ (filled ∧ g = e.gsn)))

/-- R37, R38, R69, R74, R75: a window closed with any other class over another station's frame voids it: what awaited the window
is gone, a current early write of it has lost its entry, every slot is held as before but that the TENTATIVE slot of an
early-written REPLAY returns to GAP and the gap count rises by one (R18, R58); only the catch-up unit, whose timeout or selection
waited for that window, may then give GAP slots up as LOST (R123, R124, R130). The journal's limits stay, the budget rises by one for
this station's own CONTENT. When it reaches 16 the station goes to FAULT. -/
def Obligations.WindowEndVoidsTheFrame : Prop :=
  ∀ (s : State) (w : WindowRun) (lowRun : Nat) (d : DecisionRecord), s.resetHeld = false → s.bus.rx = .window →
    s.bus.windows = [w] → w.opened = true → w.overlapping = false → w.own = false → s.bus.dataFault = false →
    s.bus.offTarget = none → s.filter.receive = none → (s.mem.st = .syncing ∨ s.mem.st = .member) →
    s.conf.decision = some d → s.conf.budget ≤ 15 → 0 < max lowRun w.pulled →
    let faults := d.decision = .object .content ∧ s.conf.budget = 15
    let awaiting := fun e : PendEntry => e ∈ s.conf.entries ∧ e.isConfirmed = false
    let rolledBack := fun g : Nat => (d.hasEntry = true ∨ faults) ∧
      (∃ e, awaiting e ∧ e.status = .writtenEarly ∧ e.gsn = g) ∧ ∃ i, s.dir.held g = some (.tentative g i)
    let lostEntry := s.conf.write.map fun v => if v.early then { v with entryPresent := false } else v
    ∃ t, exec (.windowEnd lowRun) s = .next t ∧ t.now = max s.now w.due ∧
      (d.hasEntry = true → (∃ e, awaiting e) →
        t.conf.entries = s.conf.entries.filter PendEntry.isConfirmed ∧ t.conf.write = lostEntry) ∧
      (d.hasEntry = false → ¬ faults → t.conf.write = s.conf.write) ∧
      (∀ g, rolledBack g → t.dir.held g = some (.gap g) ∨ t.dir.held g = some (.lost g)) ∧
      (∀ g, ¬ rolledBack g → t.dir.held g = s.dir.held g ∨
        (s.dir.held g = some (.gap g) ∧ t.dir.held g = some (.lost g))) ∧
      (s.dir.Counted → s.dir.lostCount ≤ t.dir.lostCount ∧
        ((∀ g, ¬ rolledBack g) → t.dir.gapCount + t.dir.lostCount = s.dir.gapCount + s.dir.lostCount) ∧
        (∀ g, rolledBack g → (∀ x, rolledBack x → x = g) →
          t.dir.gapCount + t.dir.lostCount = s.dir.gapCount + s.dir.lostCount + 1)) ∧
      t.dir.window = s.dir.window ∧ t.dir.frontier = s.dir.frontier ∧ t.conf.decision = none ∧ t.bus.windows = [] ∧
      t.filter.window = none ∧ s.KeepsFixed t ∧
      (d.decision ≠ .object .content ∨ s.conf.budget ≤ 14 →
        t.conf.budget = (if d.decision = .object .content then s.conf.budget + 1 else s.conf.budget) ∧
        (d.hasEntry = false → t.conf.entries = s.conf.entries) ∧
        (t.mem.st = .syncing ∨ t.mem.st = .member) ∧ t.bus.rx = .separation ∧ t.bus.sepEnd = t.now + s.bt 4) ∧
      (faults → t.mem.st = .fault ∧ t.bus.rx = .stopped ∧ t.conf.drain = true ∧ t.conf.write = lostEntry) ∧
      (32 < lowRun → t.bus.objFault = true ∨ t.mem.st = .fault)

/-- R88 to R93: the head's attempt ends at its window's end: confirmed it leaves the queue; a content failure counts a retry or
drops it at the START limit; STALE waits two heartbeat periods, the fourth drops it; FULL and OVERRUN back off for
(station + 1) x 64 bt, the 32nd drops it. DROPPED(tag, reason) is posted for a dropped entry and for no other; at a frontier of
2^48 whatever is left is dropped with NUMBERS_SPENT. -/
def Obligations.OwnRecordMeetsItsOutcome : Prop :=
  ∀ (s : State) (w : WindowRun) (lowRun stamp : Nat) (h : OutEntry) (rest : List OutEntry) (b : FrameBody) (p : StartParams),
    s.resetHeld = false → s.bus.rx = .window → s.bus.windows = [w] → w.opened = true → w.overlapping = false →
    w.own = true → s.bus.dataFault = false → s.bus.offTarget = none → (s.mem.st = .syncing ∨ s.mem.st = .member) →
    s.sel.inFlight = some { sender := .outbound, body := b, discard := false } → s.params = some p →
    s.out.departing = false → s.out.entries = h :: rest → h.state = .inFlight stamp → (∀ e ∈ rest, e.state = .waiting) →
    s.conf.budget ≤ 14 →
    let run := max lowRun w.pulled
    let n := max s.now w.due
    let content := w.readback = true ∨ (1 ≤ run ∧ run ≤ 8)
    let dropped : Option DropReason :=
      if content then (if p.retryLimit ≤ h.contentRetries + 1 then some .retryLimit else none)
      else if run = 0 then none
      else if run ≤ 18 then (if 4 ≤ h.staleCount + 1 then some .staleLimit else none)
      else if 32 ≤ h.busyRetries + 1 then some .busyLimit else none
    let left : List OutEntry :=
      if dropped ≠ none then rest
      else if content then { h with contentRetries := h.contentRetries + 1, state := .waiting } :: rest
      else if run = 0 then rest
      else if run ≤ 18 then { h with staleCount := h.staleCount + 1, state := .staleWait (n + 2 * s.heartbeat) } :: rest
      else { h with
        busyRetries := h.busyRetries + 1, state := .backoff (n + s.bt ((s.straps.station.val + 1) * 64)) } :: rest
    ∃ t, exec (.windowEnd lowRun) s = .next t ∧ t.now = n ∧ t.sel.inFlight = none ∧
      (t.dir.frontier < 2 ^ 48 → t.out.entries.map OutEntry.atRest = left.map OutEntry.atRest) ∧
      (2 ^ 48 ≤ t.dir.frontier → t.out.entries = []) ∧
      (s.port.Bounded → s.port.lost < 255 → t.port.lost = s.port.lost → ∃ added, t.port.notices = s.port.notices ++ added ∧
        ∀ tag reason, .dropped tag reason ∈ added ↔
          (tag = h.tag ∧ dropped = some reason) ∨
          (2 ^ 48 ≤ t.dir.frontier ∧ reason = .numbersSpent ∧ ∃ e ∈ left, e.tag = tag)) ∧
      s.KeepsFixed t

/-- R39, R40, R116: a data-line fault sets its mark, inhibits the transmitter and posts LINE_FAULT(DATA), from IDLE and
SYNC_WAIT it leads to FAULT_WAIT; an objection-line fault is marked and posted once for each occurrence; both set the fault
flag of a member; the line's recovery clears the mark. An objection-line fault is found too while the interface only
finishes its own frame's window (notes/assumptions/39.md). -/
def Obligations.LineFaultsAreMarkedOnce : Prop :=
  ∀ s : State, s.resetHeld = false →
    ((s.bus.rx = .preWindow ∨ s.bus.rx = .window ∨ s.bus.rx = .separation ∨ s.bus.rx = .idle ∨ s.bus.rx = .syncWait) →
      s.bus.offTarget = none → s.bus.dataFault = false → ∃ t, exec .dataLineFault s = .next t ∧
        let wait := s.bus.rx = .idle ∨ s.bus.rx = .syncWait
        Follows { s with
          bus := { s.bus with
            dataFault := true, inhibit := true
            rx := if wait then .faultWait else s.bus.rx
            recessiveSince := if wait then s.now else s.bus.recessiveSince }
          swp := if wait then { s.swp with idleSince := none } else s.swp
          mem := { s.mem with faultFlag := s.mem.faultFlag || s.inGroup }
          port := s.port.post (.lineFault .data) } t) ∧
    ((s.bus.rx = .frame ∨ s.bus.rx = .preWindow ∨ s.bus.rx = .window ∨ s.bus.rx = .separation ∨
        (s.bus.rx = .idle ∧ s.bus.objWatch = true)) →
      exec .objectionLineFault s = .next (if s.bus.objFault then s else { s with
        bus := { s.bus with objFault := true }
        mem := { s.mem with faultFlag := s.mem.faultFlag || s.inGroup }
        port := s.port.post (.lineFault .objection) })) ∧
    (s.bus.on = true → exec .objectionLineRecovery s = .next { s with bus := { s.bus with objFault := false } })

/-! ## The journal -/

/-- R6, R7, R8, R19: a confirmed live record at or above the frontier becomes the new high; the low follows so that the window
holds at most 4,096 GSNs; the GSNs passed over become GAP, those below the new low are retired, all others are held as
before. Into an empty window it comes alone. -/
def Obligations.LiveRecordMovesTheWindow : Prop :=
  (∀ (d : Directory) (x : Slot) (w : Window), d.window = some w → w.low ≤ w.high → w.high ≤ w.low + 4095 →
    d.frontier = w.high + 1 → d.frontier ≤ x.gsn →
    let c := d.live x
    let low := max w.low (x.gsn - 4095)
    c.dir.window = some { low := low, high := x.gsn } ∧ c.dir.frontier = x.gsn + 1 ∧ c.dir.held x.gsn = some x ∧
    (∀ g, max d.frontier low ≤ g → g < x.gsn → c.dir.held g = some (.gap g)) ∧
    (∀ g, w.low ≤ g → g < low → g ≤ w.high → c.dir.held g = none) ∧
    (∀ g, low ≤ g → g ≤ w.high → c.dir.held g = d.held g) ∧
    (∀ g, g ∈ c.retired ↔ w.low ≤ g ∧ g < low ∧ g ≤ w.high ∧ d.held g = some (.gap g))) ∧
  (∀ (d : Directory) (x : Slot), d.window = none →
    (d.live x).dir.window = some { low := x.gsn, high := x.gsn } ∧ (d.live x).dir.frontier = x.gsn + 1 ∧
    (d.live x).dir.held x.gsn = some x ∧ (d.live x).retired = [] ∧ (d.live x).opened = [])

/-- R10, R12, R13: a PRESENCE above the frontier of a window that is not empty opens a gap up to it, an empty window only takes
the frontier, and one at or below changes nothing; a joiner learns the frontier by the first case that applies. At the window's end
of a peer's PRESENCE, in SYNCING and MEMBER, GAP_OPENED is posted for the gap and LOST for the stretches retired from GAP (R20),
which leave the catch-up run (R132). -/
def Obligations.PresenceAndJoinLearningSetTheFrontier : Prop :=
  (∀ (d : Directory) (p : Nat), p ≤ d.frontier → (d.presence p).dir = d) ∧
  (∀ (d : Directory) (p : Nat), d.frontier < p → d.window = none →
    (d.presence p).dir = { d with frontier := p } ∧ (d.presence p).opened = []) ∧
  (∀ (d : Directory) (p : Nat) (w : Window), d.frontier < p → d.window = some w → d.frontier = w.high + 1 →
    w.low ≤ w.high → w.high ≤ w.low + 4095 →
    let low := max w.low (p - 4096)
    (d.presence p).dir.window = some { low := low, high := p - 1 } ∧ (d.presence p).dir.frontier = p ∧
    (∀ g, max d.frontier low ≤ g → g < p → (d.presence p).dir.held g = some (.gap g)) ∧
    (∀ g, low ≤ g → g ≤ w.high → (d.presence p).dir.held g = d.held g)) ∧
  (∀ (d : Directory) (depth f : Nat), (d.learn depth f).1.dir.frontier = f ∧
    (d.window = none → (d.learn depth f).2 = none ∧
      ((depth = 0 ∨ f = 1) → (d.learn depth f).1.dir = { d with frontier := f }) ∧
      (0 < depth → 2 ≤ f → depth ≤ 4095 →
        (d.learn depth f).1.dir.window = some { low := max 1 (f - depth), high := f - 1 } ∧
        ∀ g, max 1 (f - depth) ≤ g → g < f → (d.learn depth f).1.dir.held g = some (.gap g))) ∧
    (∀ w, d.window = some w → f ≤ w.high →
      (d.learn depth f).2 = some w ∧ (d.learn depth f).1 = Directory.reset.learnFresh depth f) ∧
    (∀ w, d.window = some w → f = w.high + 1 → d.learn depth f = (⟨{ d with frontier := f }, [], []⟩, none)) ∧
    (∀ w, d.window = some w → w.high + 1 < f → (d.learn depth f).2 = none ∧
      (d.learn depth f).1.dir.window = some { low := max w.low (f - 4096), high := f - 1 })) ∧
  (∀ (s : State) (w : WindowRun) (k : Station) (p l : Nat) (c chk : Check) (m : Bool) (sc : Scope),
    peerFrameEnds s w (.sound k (.presence p l c m) chk sc) → (s.mem.st = .syncing ∨ s.mem.st = .member) →
    s.dir.frontier < p →
    let low := match s.dir.window with
      | some v => max v.low (p - 4096)
      | none => p
    ∃ t, exec (.windowEnd 0) s = .next t ∧ t.now = max s.now w.due ∧ t.dir.frontier = p ∧
      t.dir.window = s.dir.window.map (fun _ => { low := low, high := p - 1 }) ∧
      opensAndRetires s t low (match s.dir.window with | some _ => max s.dir.frontier low | none => p) p ∧
      (∀ c, t.cat.requester = some c → ∀ g, retiredGap s.dir low g → g ∉ c.run))

/-- R11, R23: marking a run LOST touches only the slots that hold their GSN in GAP; founding sets the frontier above the high,
or to 1, and leaves no GSN of the window in GAP. -/
def Obligations.OnlyGapsBecomeLost : Prop :=
  (∀ (d : Directory) (l : List Nat) (g : Nat),
    (d.markLost l).held g = if g ∈ l ∧ d.held g = some (.gap g) then some (.lost g) else d.held g) ∧
  (∀ (d : Directory) (l : List Nat), (d.markLost l).window = d.window ∧ (d.markLost l).frontier = d.frontier) ∧
  (∀ (d : Directory) (w : Window), d.window = some w → d.found.frontier = w.high + 1 ∧ d.found.window = some w ∧
    ∀ g, w.low ≤ g → g ≤ w.high → d.found.held g = if d.held g = some (.gap g) then some (.lost g) else d.held g) ∧
  (∀ d : Directory, d.window = none → d.found = { d with frontier := 1 })

/-! ## Timers -/

/-- R101 to R105, R11, R12: the listen timer's expiry founds: FOUNDING, with a FOUND that carries the high plus one, or 1; the
join-wait timer's expiry returns to LISTENING with a new listen of three heartbeat periods. A frame of the group that is heard
meanwhile makes the station JOINING; the first that carries a frontier teaches it and offers the JOIN, any other starts the
join wait. The own FOUND or JOIN, confirmed, makes it a member, a JOIN during a drain only at its end (R78); else it is
offered again. Learning posts HISTORY_DISCARDED for a journal that is ahead, LOST for what it retires from GAP, GAP_OPENED for the
run it opens (R12, R13, R20); the own FOUND turns every gap into LOST and posts LOST for each stretch (R11). A joiner with gaps forms
a requester context over its lowest ones, 16 at most, and selects a responder (R121 to R124). -/
def Obligations.ListenAndJoinWaitExpire : Prop :=
  (∀ (s : State) (e : Nat), s.resetHeld = false →
    (s.mem.st = .listening → s.mem.listenTimer = some e → ∃ t, exec .listenTimerExpiry s = .next t ∧
      Follows { s with
        now := max s.now e
        mem := { s.mem with st := .founding, listenTimer := none }
        sel := { s.sel with membership := some (.found (match s.dir.window with
          | some w => w.high + 1
          | none => 1)) }
        port := s.port.post (.state .founding) } t) ∧
    (s.mem.st = .joining → s.mem.joinWait = some e → s.bus.on = true → s.bus.offTarget = none →
      ∃ t, exec .joinWaitExpiry s = .next t ∧
        Follows { s with
          now := max s.now e
          mem := { s.mem with st := .listening, learned := none, highBefore := none, joinWait := none, listenOwed := false,
                              listenTimer := some (max s.now e + 3 * s.heartbeat) }
          port := s.port.post (.state .listening) } t)) ∧
  (∀ (s : State) (w : WindowRun) (k : Station) (b : FrameBody) (chk : Check) (sc : Scope),
    peerFrameEnds s w (.sound k b chk sc) → (s.mem.st = .listening ∨ s.mem.st = .founding ∨ s.mem.st = .joining) →
    let high := match s.dir.window with
      | some v => v.high
      | none => 0
    let taught := match b with
      | .record g _ _ => some (g + 1)
      | .presence f _ _ _ => some f
      | .found f => some f
      | _ => none
    ∃ t, exec (.windowEnd 0) s = .next t ∧ t.mem.st = .joining ∧ t.now = max s.now w.due ∧
      (∀ f p, taught = some f → s.mem.learned = none → s.params = some p →
        t.dir = (s.dir.learn p.historyDepth f).1.dir ∧ t.dir.frontier = f ∧ t.mem.learned = some f ∧
        t.mem.highBefore = some high ∧ t.mem.joinWait = none ∧ t.sel.membership = some (.join high) ∧
        (match s.dir.window with
        | some v =>
          if v.high < f then opensAndRetires s t (max v.low (f - 4096)) (max (v.high + 1) (max v.low (f - 4096))) f
          else opensAndRetires s t 0 (max 1 (f - p.historyDepth)) f
        | none => opensAndRetires s t 0 (max 1 (f - p.historyDepth)) f) ∧
        (allPosted s t → ∀ a b, .historyDiscarded a b ∈ added s t ↔
          ∃ v, s.dir.window = some v ∧ f ≤ v.high ∧ a = v.low ∧ b = v.high) ∧
        (allPosted s t → ∀ a b g n, .historyDiscarded a b ∈ added s t → .gapOpened g n ∈ added s t →
          [.historyDiscarded a b, .gapOpened g n].Sublist (added s t))) ∧
      ((taught = none ∨ s.mem.learned ≠ none) → t.dir = s.dir ∧ t.mem.learned = s.mem.learned ∧
        t.mem.joinWait = if s.mem.st = .joining then s.mem.joinWait else some (t.now + 3 * s.heartbeat)) ∧
      (s.mem.st ≠ .joining → t.mem.listenTimer = none)) ∧
  (∀ (s : State) (w : WindowRun) (lowRun : Nat) (b : FrameBody), windowEnds s w → w.own = true → s.conf.decision = none →
    s.sel.inFlight = some { sender := .membership, body := b, discard := false } →
    ((s.mem.st = .founding ∧ ∃ f, b = .found f) ∨ (s.mem.st = .joining ∧ ∃ h, b = .join h)) →
    ∃ t, exec (.windowEnd lowRun) s = .next t ∧ t.now = max s.now w.due ∧ t.dir.window = s.dir.window ∧
      (ownStands w lowRun = true → (s.mem.st = .founding ∨ s.conf.drain = false) →
        (t.mem.st = .syncing ∨ t.mem.st = .member) ∧ t.mem.presence = some (t.now + s.heartbeat) ∧ t.conf.budget = 0 ∧
        t.mem.faultFlag = false ∧ t.mem.learned = none ∧ t.mem.highBefore = none) ∧
      (ownStands w lowRun = true → s.mem.st = .founding → t.dir.frontier = (match s.dir.window with
        | some v => v.high + 1
        | none => 1) ∧
        ∀ v, s.dir.window = some v →
          (∀ g, v.low ≤ g → g ≤ v.high → s.dir.held g = some (.gap g) → t.dir.held g = some (.lost g)) ∧
          (allPosted s t → (∀ g n, stretch (fun x => v.low ≤ x ∧ x ≤ v.high ∧ s.dir.held x = some (.gap x)) g n →
            .lost g n ∈ added s t) ∧ gapNoticesInOrder (added s t))) ∧
      (∀ a n, ownStands w lowRun = true → s.mem.st = .joining → s.conf.drain = false → s.cat.requester = none →
        0 < s.dir.gapCount → lowestGaps s.dir a n → selects s t (fun _ => none) 1 (fun _ => False) a (a + n - 1)) ∧
      (ownStands w lowRun = true → s.mem.st = .joining → s.conf.drain = true → t.mem.st = .joining ∧ t.mem.joinOwed = true) ∧
      (ownStands w lowRun = false → t.mem.st = s.mem.st ∧ t.sel.membership = some b))

/-- R117, R94: the leave timer's expiry ends the group part: the offer, the queue, the contexts and the peer entries are
cleared, DROPPED(tag, DEPARTED) is posted for every entry, oldest first, and the drain is asked for; while the LEAVE is in
flight its result is waited for and no further attempt is made. The LEAVE's result ends the group part when it stands, at the
third voiding and after the expiry; else the LEAVE is offered again. -/
def Obligations.LeaveTimerEndsTheGroupPart : Prop :=
  (∀ (s : State) (l : LeaveRecord) (e : Nat), s.resetHeld = false → s.mem.st = .leaving → s.mem.leave = some l →
    l.timer = some e →
    (∀ f, s.sel.inFlight = some f → f.body.isLeave = true → exec .leaveTimerExpiry s = .next { s with
      now := max s.now e, mem := { s.mem with leave := some { l with timer := none, expired := true } } }) ∧
    ((∀ f, s.sel.inFlight = some f → f.body.isLeave = false ∧ f.sender ≠ .outbound) →
      ∃ t, exec .leaveTimerExpiry s = .next t ∧ t.now = max s.now e ∧ t.mem.st = .leaving ∧
      t.mem.leave = some { l with timer := none, expired := false } ∧ t.sel.membership = none ∧ t.out.entries = [] ∧
      t.cat = { requester := none, responder := none } ∧ (∀ k, t.mem.peer k = Peer.reset) ∧ t.conf.drain = true ∧
      (s.port.notices.length + s.out.entries.length ≤ 32 →
        s.port.notices ++ s.out.entries.map (fun x => .dropped x.tag .departed) <+: t.port.notices) ∧
      t.bus = s.bus ∧ t.dir.window = s.dir.window ∧ t.dir.frontier = s.dir.frontier ∧ s.KeepsFixed t)) ∧
  (∀ (s : State) (w : WindowRun) (lowRun : Nat) (l : LeaveRecord) (reason : LeaveReason), windowEnds s w → w.own = true →
    s.mem.st = .leaving → s.mem.leave = some l → s.conf.drain = false → s.conf.decision = none →
    s.sel.inFlight = some { sender := .membership, body := .leave reason, discard := false } →
    let voided := if ownStands w lowRun then l.voided else l.voided + 1
    ∃ t, exec (.windowEnd lowRun) s = .next t ∧ t.now = max s.now w.due ∧ t.mem.st = .leaving ∧
      (if ownStands w lowRun = true ∨ l.expired = true ∨ 3 ≤ voided then
        t.mem.leave = some { l with voided := voided, timer := none, expired := false } ∧ t.sel.membership = none ∧
        t.out.entries = [] ∧ t.cat = { requester := none, responder := none } ∧ (∀ k, t.mem.peer k = Peer.reset) ∧
        t.conf.drain = true
      else
        t.mem.leave = some { l with voided := voided } ∧ t.sel.membership = some (.leave l.reason) ∧ t.conf.drain = false) ∧
      t.dir.window = s.dir.window ∧ t.dir.frontier = s.dir.frontier ∧ s.KeepsFixed t)

/-- R112: a tick visits every peer entry once: one that was heard has its flag cleared, one that was not counts a miss and at
3 becomes SILENT without its quiet mark, with PEER_CHANGE(SILENT); the timer runs on. In LEAVING nothing is visited. PEER_SILENT
makes an ACTIVE entry with a missed count of 3 SILENT (notes/assumptions/4.md). R111, R113, R114: a confirmed frame of a peer
makes its entry ACTIVE, or LEFT or HELD, with what the frame carries. R108: a PRESENCE whose check differs from the stored one
sets the divergence mark and the fault flag. -/
def Obligations.HeartbeatTicksCountMisses : Prop :=
  (∀ (s : State), s.resetHeld = false →
    (∀ e, s.mem.tick = some e → ∃ t, exec .heartbeatTick s = .next t ∧ t.now = max s.now e ∧
      t.mem.tick = some (e + s.heartbeat) ∧ s.KeepsFixed t ∧ t.bus = s.bus ∧ t.dir.frontier = s.dir.frontier ∧
      ((s.entering = true ∨ s.inGroup = true) → ∀ k, k ≠ s.straps.station →
        let p := s.mem.peer k
        (t.mem.peer k =
          if p.status ≠ .active then p
          else if p.heard then { p with heard := false }
          else if p.missed < 2 then { p with missed := p.missed + 1 }
          else { p with missed := 3, status := .silent, quiet := none }) ∧
        (p.status = .active → p.heard = false → 2 ≤ p.missed → postedUnlessLost s t (.peerChange k .silent))) ∧
      t.mem.peer s.straps.station = s.mem.peer s.straps.station ∧
      (s.entering = false → s.inGroup = false → t.mem.peers = s.mem.peers)) ∧
    (∀ k, k ≠ s.straps.station → (s.mem.peer k).status = .active → 3 ≤ (s.mem.peer k).missed →
      ∃ t, exec (.peerSilent k) s = .next t ∧
        t.mem.peer k = { s.mem.peer k with missed := 3, status := .silent, quiet := none } ∧
        (s.port.notices.length < 32 → s.port.notices ++ [.peerChange k .silent] <+: t.port.notices) ∧
        (∀ j, j ≠ k → t.mem.peer j = s.mem.peer j) ∧ s.KeepsFixed t ∧ t.now = s.now ∧ t.bus = s.bus)) ∧
  (∀ (s : State) (w : WindowRun) (k : Station) (b : FrameBody) (chk : Check) (sc : Scope),
    peerFrameEnds s w (.sound k b chk sc) → (s.inGroup = true ∨ s.entering = true) → k ≠ s.straps.station →
    let p := { s.mem.peer k with status := .active, missed := 0, heard := true }
    ∃ t, exec (.windowEnd 0) s = .next t ∧ t.now = max s.now w.due ∧ (∀ j, j ≠ k → t.mem.peer j = s.mem.peer j) ∧
      (t.mem.peer k = match b with
        | .record g _ _ => { p with heardFrontier := some (g + 1) }
        | .presence f l _ m => { p with
            heardFrontier := some f, heardLow := (if l = 0 then none else some l), heardMember := some m
            divergence := (t.mem.peer k).divergence }
        | .found f => { p with heardFrontier := some f }
        | .join h => { p with heardRetained := some h, heardFrontier := none, heardLow := none, divergence := none }
        | .leave r => { p with status := (if r = .hold then .held else .left), quiet := none, divergence := none }
        | .quiet d => { p with quiet := some (t.now + 10 * d) }
        | .fetch .. => p
        | .gone .. => p
        | .replay .. => p) ∧
      (((s.mem.peer k).status ≠ .active ∨ b.isLeave = true) →
        postedUnlessLost s t (.peerChange k (t.mem.peer k).status)) ∧
      (∀ f l c m, b = .presence f l c m →
        let differs := s.inGroup = true ∧ c ≠ 0 ∧
          ∃ i, s.dir.held (f - 1) = some (.committed (f - 1) i) ∧ i.check ≠ c
        (differs → (t.mem.peer k).divergence = some (f - 1) ∧ t.mem.faultFlag = true ∧
          ((s.mem.peer k).divergence ≠ some (f - 1) → postedUnlessLost s t (.divergence k (f - 1)))) ∧
        (¬ differs → (t.mem.peer k).divergence = (s.mem.peer k).divergence ∧ t.mem.faultFlag = s.mem.faultFlag)))

/-- R107, R113: the presence timer's expiry offers a PRESENCE with the frontier, the low, the check of the record at
frontier - 1 and the state, and does not restart; the timer restarts when an own frame of any kind is confirmed, which
withdraws a PRESENCE not yet sent; a PRESENCE that is voided or has a readback failure is offered again with the values as they
then stand. A quiet mark's expiry clears it, and the head follows. The model's reading (notes/assumptions/50.md): the timer
restarts for an own frame observed NONE with a readback failure too. -/
def Obligations.PresenceAndQuietMarksExpire : Prop :=
  (∀ (s : State) (e : Nat), s.resetHeld = false →
    (s.mem.presence = some e → (s.mem.st = .syncing ∨ s.mem.st = .member) → ∃ t, exec .presenceTimerExpiry s = .next t ∧
      t.sel.membership = some (presenceNow s) ∧
      Follows { s with
        now := max s.now e
        mem := { s.mem with presence := none }
        sel := { s.sel with membership := t.sel.membership } } t) ∧
    (∀ k, (s.mem.peer k).quiet = some e → ∃ t, exec (.quietMarkExpiry k) s = .next t ∧ t.HeadFollowsConditions ∧
      (t.mem.peer k).quiet = none ∧ (∀ j, j ≠ k → t.mem.peer j = s.mem.peer j) ∧
      Follows { s with now := max s.now e, mem := { s.mem with peers := t.mem.peers } } t)) ∧
  (∀ (s : State) (w : WindowRun) (lowRun : Nat) (f : InFlight), windowEnds s w → w.own = true →
    (s.mem.st = .syncing ∨ s.mem.st = .member) → s.sel.inFlight = some f → ∃ t, exec (.windowEnd lowRun) s = .next t ∧
      t.now = max s.now w.due ∧ t.sel.inFlight = none ∧
      (max lowRun w.pulled = 0 → t.mem.presence = some (t.now + s.heartbeat)) ∧
      (0 < max lowRun w.pulled → t.mem.presence = s.mem.presence) ∧
      let again := f.sender = .membership ∧ f.discard = false ∧ (∃ a b c d, f.body = .presence a b c d) ∧
        ownStands w lowRun = false
      (again → t.sel.membership = some (presenceNow t)) ∧
      (¬ again → max lowRun w.pulled = 0 → ∀ a b c d, t.sel.membership ≠ some (.presence a b c d)))

/-- R90, R91, R137: at its wait end the head of the queue goes back to contending, and the responder offers its frame again; a
STALE_WAIT ends too at the window's end of a peer's frame that raises the frontier, and only then (R90).
R137, R138: the responder's frame confirmed, the context goes on behind it or ends after its last GSN; voided, it is offered
again at once, after FULL it waits in BACKOFF for (station + 1) x 64 bt, and the third voiding in a row ends the context. The
model's choice (notes/assumptions/42.md): with a readback failure it is offered at once after FULL too. -/
def Obligations.SendersWaitsEnd : Prop :=
  (∀ (s : State) (e : Nat), s.resetHeld = false →
    (∀ (c : Instr) (h : OutEntry) (rest : List OutEntry), s.out.entries = h :: rest →
      ((c = .staleWaitEnd ∧ h.state = .staleWait e) ∨ (c = .backoffEnd ∧ h.state = .backoff e)) →
      ∃ t, exec c s = .next t ∧ t.HeadFollowsConditions ∧ Follows { s with
        now := max s.now e, out := { s.out with entries := { h with state := .waiting } :: rest } } t) ∧
    (∀ (r : ResponderCtx) (b : FrameBody), s.cat.responder = some r → r.phase = .backoff b e →
      (s.mem.st = .syncing ∨ s.mem.st = .member) → ∃ t, exec .responderBackoffEnd s = .next t ∧ Follows { s with
        now := max s.now e
        cat := { s.cat with responder := some { r with phase := .offered b } }
        sel := { s.sel with responder := some b } } t)) ∧
  (∀ (s : State) (w : WindowRun) (lowRun e : Nat) (h : OutEntry) (rest : List OutEntry), windowEnds s w → w.own = false →
    (s.mem.st = .syncing ∨ s.mem.st = .member) → s.out.entries = h :: rest → h.state = .staleWait e → s.dir.frontier < 2 ^ 48 →
    ∃ t, exec (.windowEnd lowRun) s = .next t ∧ t.now = max s.now w.due ∧
      (s.dir.frontier < t.dir.frontier → t.dir.frontier < 2 ^ 48 → t.HeadFollowsConditions ∧
        t.out.entries.map OutEntry.atRest = ({ h with state := .waiting } :: rest).map OutEntry.atRest) ∧
      (t.dir.frontier = s.dir.frontier → t.out.entries.map OutEntry.atRest = s.out.entries.map OutEntry.atRest)) ∧
  (∀ (s : State) (w : WindowRun) (lowRun : Nat) (r : ResponderCtx) (b : FrameBody), windowEnds s w → w.own = true →
    (s.mem.st = .syncing ∨ s.mem.st = .member) → s.cat.responder = some r → r.phase = .offered b →
    s.sel.inFlight = some { sender := .responder, body := b, discard := false } → s.sel.responder = none →
    let next := match b with
      | .gone _ first count => first + count
      | _ => r.next + 1
    ∃ t, exec (.windowEnd lowRun) s = .next t ∧ t.now = max s.now w.due ∧ t.sel.inFlight = none ∧
      (if ownStands w lowRun = true then
        if r.last < next then t.cat.responder = none
        else ∃ q, t.cat.responder = some q ∧ q.requester = r.requester ∧ q.next = next ∧ q.last = r.last ∧ q.retries = 0
      else if 2 ≤ r.retries then t.cat.responder = none
      else if 18 < max lowRun w.pulled ∧ w.readback = false then
        t.cat.responder = some { r with
          retries := r.retries + 1, phase := .backoff b (t.now + s.bt ((s.straps.station.val + 1) * 64)) } ∧
        t.sel.responder = none
      else t.cat.responder = some { r with retries := r.retries + 1 } ∧ t.sel.responder = some b))

/-- R130, R131, section 7.3: the deadline's passing marks the responder TIMED_OUT and a responder is selected for the run cut
to its lowest outstanding stretch; at the third attempt every outstanding GSN is LOST, with one notice for each stretch, and the
context ends; while a GSN of the run is TENTATIVE the timeout is held. R122 to R124: the selection asks the lowest-numbered
usable candidate not tried, else the lowest that timed out; else it gives up what the low-end test or GONE-exhausted says and
goes on with the remainder, or waits. R125 to R128: the own FETCH, confirmed, awaits its answers for 10 ms, voided it is offered
again; a REPLAY or a GONE of the current responder answers its GSNs of the run and sets the deadline again, while another
outstanding GSN is still unanswered. R129: a GONE that leaves no outstanding GSN unanswered completes the attempt: the responder is
marked GONE, the attempt number is 1, a responder is selected. -/
def Obligations.CatchUpDeadlinePasses : Prop :=
  (∀ (s : State) (c : RequesterCtx) (k : Station) (answered : List Nat) (e : Nat), s.resetHeld = false →
    (s.mem.st = .syncing ∨ s.mem.st = .member) → s.cat.requester = some c → c.phase = .awaiting k answered (some e) →
    (∃ g ∈ c.outstanding s.dir, g ∉ answered) → ∃ t, exec .catchUpDeadline s = .next t ∧ t.now = max s.now e ∧
      s.KeepsFixed t ∧ t.bus = s.bus ∧ t.conf = s.conf ∧ t.dir.window = s.dir.window ∧
      t.dir.frontier = s.dir.frontier ∧
      ((∃ g ∈ c.run, ∃ i, s.dir.held g = some (.tentative g i)) → t.dir = s.dir ∧
        t.cat.requester = some { c with phase := .awaiting k answered none, timeoutHeld := true }) ∧
      ((∀ g ∈ c.run, ∀ i, s.dir.held g ≠ some (.tentative g i)) → 3 ≤ c.attempt → c.received.Pairwise (· < ·) →
        (∀ g, outstandingIn s.dir c g → t.dir.held g = some (.lost g)) ∧
        (allPosted s t → ∀ g n, stretch (outstandingIn s.dir c) g n → .lost g n ∈ added s t) ∧
        contextEnds s t (· ∈ c.received)) ∧
      (∀ a n, (∀ g ∈ c.run, ∀ i, s.dir.held g ≠ some (.tentative g i)) → c.attempt < 3 → c.received.Pairwise (· < ·) →
        cutTo s.dir c a n →
        selects s t (fun i => if i = k then some .timedOut else markOf c.tried i) (c.attempt + 1) (· ∈ c.received) a (a + n - 1))) ∧
  (∀ (s : State) (w : WindowRun) (lowRun : Nat) (c : RequesterCtx) (k : Station) (b : FrameBody), windowEnds s w →
    w.own = true → (∀ d, s.conf.decision = some d → d.hasEntry = false) → (s.mem.st = .syncing ∨ s.mem.st = .member) →
    s.sel.inFlight = some { sender := .requester, body := b, discard := false } → s.cat.requester = some c →
    c.phase = .offered k → c.timeoutHeld = false → c.outstanding s.dir ≠ [] →
    ∃ t, exec (.windowEnd lowRun) s = .next t ∧ t.now = max s.now w.due ∧
      (ownStands w lowRun = true → t.dir = s.dir ∧
        t.cat.requester = some { c with phase := .awaiting k [] (some (t.now + 100000)) }) ∧
      (ownStands w lowRun = false → k ∈ s.candidates (c.cut s.dir).last → t.dir = s.dir ∧
        t.sel.requester = some (.fetch k (c.cut s.dir).first (c.cut s.dir).count))) ∧
  (∀ (s : State) (w : WindowRun) (c : RequesterCtx) (k : Station) (answered hit : List Nat) (dl : Option Nat)
    (b : FrameBody) (chk : Check) (sc : Scope), windowEnds s w → w.own = false → w.pulled = 0 →
    s.filter.window = some (.sound k b chk sc) → (s.mem.st = .syncing ∨ s.mem.st = .member) →
    s.cat.requester = some c → c.phase = .awaiting k answered dl → c.timeoutHeld = false →
    ((∃ g n, b = .gone s.straps.station g n ∧ hit = List.range' g n ∧ (∃ x ∈ hit, x ∈ c.run) ∧
        (∀ d, s.conf.decision = some d → d.hasEntry = false)) ∨
     (∃ g o tag p, b = .replay s.straps.station g o tag p ∧ hit = [g] ∧ g ∈ c.run ∧
        ∀ e, s.conf.entries.find? (fun x => !x.isConfirmed) = some e → e.gsn = g ∧ e.live = false)) →
    (∃ g ∈ c.outstanding s.dir, g ∉ answered ∧ g ∉ hit) →
    ∃ t q now', exec (.windowEnd 0) s = .next t ∧ t.now = max s.now w.due ∧ t.cat.requester = some q ∧
      q.first = c.first ∧ q.count = c.count ∧ q.attempt = c.attempt ∧ q.tried = c.tried ∧
      q.phase = .awaiting k now' (some (t.now + 100000)) ∧ (∀ x, x ∈ now' ↔ x ∈ answered ∨ (x ∈ hit ∧ x ∈ c.run))) ∧
  (∀ (s : State) (w : WindowRun) (c : RequesterCtx) (k : Station) (answered : List Nat) (dl : Option Nat)
    (g n a m : Nat) (chk : Check) (sc : Scope), peerFrameEnds s w (.sound k (.gone s.straps.station g n) chk sc) →
    (s.mem.st = .syncing ∨ s.mem.st = .member) → k ≠ s.straps.station → s.cat.requester = some c →
    c.phase = .awaiting k answered dl → c.received.Pairwise (· < ·) → (∃ x ∈ c.run, g ≤ x ∧ x < g + n) →
    (∀ x ∈ c.run, ∀ i, s.dir.held x ≠ some (.tentative x i)) →
    (∀ x, outstandingIn s.dir c x → x ∈ answered ∨ (g ≤ x ∧ x < g + n)) → cutTo s.dir c a m →
    ∃ t, exec (.windowEnd 0) s = .next t ∧ t.now = max s.now w.due ∧
      selects s t (fun i => if i = k then some .gone else markOf c.tried i) 1 (· ∈ c.received) a (a + m - 1))

/-- R77, R78, R104, R117, R161: when the drain is complete its mark is cleared; a leaving station is DETACHED, or HELD with an
internal pass requested at rank 8 and the hold timer running; a joiner whose JOIN stands becomes a member; elsewhere nothing
more happens. -/
def Obligations.DrainCompleteEndsTheDeparture : Prop :=
  ∀ s : State, s.resetHeld = false → s.conf.drain = true → s.conf.entries = [] → s.conf.write = none →
    ∃ t, exec .drainComplete s = .next t ∧ t.conf.drain = false ∧ t.conf.entries = [] ∧ s.KeepsFixed t ∧
      t.now = s.now ∧ t.dir.window = s.dir.window ∧ t.dir.frontier = s.dir.frontier ∧
      (∀ l, s.mem.st = .leaving → s.mem.leave = some l → l.reason ≠ .hold → t.mem.st = .detached ∧ t.mem.leave = none ∧
        t.port.notices = (s.port.post (.state .detached)).notices ∧ (s.ownUnderWay = false → t.bus.rx = .off)) ∧
      (∀ l, s.mem.st = .leaving → s.mem.leave = some l → l.reason = .hold → t.mem.st = .held ∧ t.mem.leave = none ∧
        t.swp.passState = some .waiting ∧ t.swp.holdTimer = some (s.now + holdSpacing s.temp.cls) ∧
        t.swp.intervalEnd = none ∧ t.swp.licence = false ∧ t.swp.balance = s.swp.balance ∧
        (∃ q, t.arb.sweep = some q ∧ q.rank = 8) ∧ t.port.notices = (s.port.post (.state .held)).notices) ∧
      (s.mem.st = .joining → s.mem.joinOwed = true → (t.mem.st = .syncing ∨ t.mem.st = .member) ∧
        t.mem.presence = some (s.now + s.heartbeat) ∧ t.conf.budget = 0) ∧
      ((s.mem.st = .fault ∨ s.mem.st = .detached ∨ s.mem.st = .listening ∨ s.mem.st = .founding) →
        t.mem = s.mem ∧ t.bus = s.bus ∧ t.port = s.port)

/-! ## The array port -/

/-- R70, R71, R15, R16, R142: at the writer's grant the oldest CONFIRMED entry is written if its slot holds its GSN in FILLING,
else it leaves the pending window without a write. With none CONFIRMED, an entry eligible for an early write is marked tried
and written if, for a RECORD, its slot is VACANT and, for a REPLAY, holds its GSN in GAP. A grant without a write does
not hold the port, and requests that waited through it are then granted by rank (R141). -/
def Obligations.CommitWriterIsGranted : Prop :=
  ∀ (s : State) (e : PendEntry), s.resetHeld = false → s.grantable .writer = true → s.conf.write = none →
    (s.conf.entries.find? PendEntry.isConfirmed = some e → ∃ t, exec .commitWriteGrant s = .next t ∧
      (if (s.dir.fillingInfo e.gsn).isSome then
        t.conf = { s.conf with write := some {
          gsn := e.gsn, payload := e.payload, grantedEarly := false, early := false, entryPresent := true } } ∧
        t.portOp = some .commitWrite
      else t.conf = { s.conf with entries := s.conf.entries.filter fun x => x.gsn != e.gsn } ∧ t.arb.grant = none) ∧
      ((s.arb.responder ≠ none ∨ s.arb.localPort ≠ none ∨ s.arb.sweep ≠ none) → grantsByRank t) ∧
      s.KeepsFixed t ∧ t.now = s.now ∧ t.dir = s.dir ∧ t.bus = s.bus ∧ t.mem = s.mem ∧ t.cat = s.cat ∧ t.port = s.port) ∧
    (s.conf.entries.find? PendEntry.isConfirmed = none → s.conf.entries.find? s.eligible = some e →
      ∃ t, exec .commitWriteGrant s = .next t ∧
      t.conf.entries = replaceEntry e.gsn { e with status := .awaitingWindow true } s.conf.entries ∧
      (if (if e.live then s.dir.slotAt (slotOf e.gsn) = none else s.dir.held e.gsn = some (.gap e.gsn)) then
        t.conf.write = some {
          gsn := e.gsn, payload := e.payload, grantedEarly := true, early := true, entryPresent := true } ∧
        t.portOp = some .commitWrite
      else t.conf.write = none ∧ t.arb.grant = none) ∧
      ((s.arb.responder ≠ none ∨ s.arb.localPort ≠ none ∨ s.arb.sweep ≠ none) → grantsByRank t) ∧
      s.KeepsFixed t ∧ t.now = s.now ∧ t.dir = s.dir ∧ t.bus = s.bus ∧ t.mem = s.mem ∧ t.cat = s.cat ∧ t.port = s.port)

/-- R72, R15, R2: a late write's completion stores the payload upward from its cell's first byte and nowhere else, makes a
FILLING slot COMMITTED with its fields unchanged, posts COMMITTED for an own live record, removes the entry and frees the
port. -/
def Obligations.LateWriteCommits : Prop :=
  ∀ (s : State) (w : CurrentWrite) (e : PendEntry) (i : RecordInfo), s.resetHeld = false →
    s.portOp = some .commitWrite → s.conf.write = some w → w.early = false → w.entryPresent = true →
    s.conf.entries.find? (fun x => x.gsn == w.gsn) = some e → s.dir.held w.gsn = some (.filling w.gsn i) →
    ∃ t, exec .commitWriteComplete s = .next t ∧
      arrayReadBytes t.array (w.gsn % 4096 * 256) w.payload.length = w.payload ∧
      (∀ a, a < w.gsn % 4096 * 256 ∨ w.gsn % 4096 * 256 + w.payload.length ≤ a →
        arrayRead t.array a = arrayRead s.array a) ∧
      t.dir.held w.gsn = some (.committed w.gsn i) ∧ t.dir.window = s.dir.window ∧ t.dir.frontier = s.dir.frontier ∧
      (∀ g, slotOf g ≠ slotOf w.gsn → t.dir.held g = s.dir.held g) ∧
      t.port = (if e.live = true ∧ e.origin = s.straps.station then s.port.post (.committed e.tag w.gsn) else s.port) ∧
      t.conf = { s.conf with entries := s.conf.entries.filter (fun x => x.gsn != w.gsn), write := none } ∧
      t.arb.grant = none ∧ t.now = s.now ∧ t.bus = s.bus ∧ t.mem = s.mem ∧
      t.out.tagCounter = s.out.tagCounter ∧ t.temp = s.temp ∧ t.straps = s.straps ∧ t.params = s.params

/-- R73, R17, R18: an early write's completion stores the payload likewise. While the entry awaits its window, it is marked
written early; for a REPLAY a slot in GAP becomes TENTATIVE with the record's fields, and with any other the write changes neither slot nor
entry; for a RECORD the directory is unchanged. A write whose entry has been voided changes no descriptor. One whose entry is already
CONFIRMED (R68) is a late write's completion (R72). -/
def Obligations.EarlyWriteIsTentative : Prop :=
  ∀ (s : State) (w : CurrentWrite), s.resetHeld = false → s.portOp = some .commitWrite → s.conf.write = some w →
    w.grantedEarly = true →
    let found := if w.entryPresent then s.conf.entries.find? (fun x => x.gsn == w.gsn) else none
    ∃ t, exec .earlyWriteComplete s = .next t ∧
      (w.early = false → exec .commitWriteComplete s = .next t) ∧
      (∀ a, a < w.gsn % 4096 * 256 ∨ w.gsn % 4096 * 256 + w.payload.length ≤ a →
        arrayRead t.array a = arrayRead s.array a) ∧
      arrayReadBytes t.array (w.gsn % 4096 * 256) w.payload.length = w.payload ∧
      t.conf.write = none ∧ t.arb.grant = none ∧ t.dir.window = s.dir.window ∧ t.dir.frontier = s.dir.frontier ∧
      t.now = s.now ∧ t.bus = s.bus ∧ t.out.tagCounter = s.out.tagCounter ∧ t.temp = s.temp ∧ t.straps = s.straps ∧
      t.params = s.params ∧
      (w.early = true → found = none → t.conf.entries = s.conf.entries ∧ t.dir = s.dir) ∧
      (∀ e, w.early = true → found = some e →
        t.conf.entries = (if e.live = true ∨ s.dir.held w.gsn = some (.gap w.gsn) then
          replaceEntry w.gsn { e with status := .writtenEarly } s.conf.entries else s.conf.entries) ∧
        ((e.live = true ∨ s.dir.held w.gsn ≠ some (.gap w.gsn)) → t.dir = s.dir) ∧
        (e.live = false → s.dir.held w.gsn = some (.gap w.gsn) →
          t.dir.held w.gsn = some (.tentative w.gsn {
            origin := e.origin, tag := e.tag, length := e.payload.length, check := e.check }) ∧
          ∀ g, slotOf g ≠ slotOf w.gsn →
            t.dir.held g = s.dir.held g ∨ (s.dir.held g = some (.gap g) ∧ t.dir.held g = some (.lost g))))

/-- R135, R136, R119, R142: the responder's read is judged at its grant: a COMMITTED record is read from its cell in the same
grant, FILLING or TENTATIVE gives up the port and settles, any other class gives it up and is answered with GONE; requests
that waited are then granted by rank (R141). At the completion the REPLAY is offered. The GONE spans the longest stretch that is not held. R134: a confirmed FETCH to this station
forms the context and judges its first GSN; one that finds a context is ignored. -/
def Obligations.ReplayReadIsJudgedAtItsGrant : Prop :=
  (∀ (s : State) (w : WindowRun) (k : Station) (first count : Nat) (chk : Check) (sc : Scope),
    peerFrameEnds s w (.sound k (.fetch s.straps.station first count) chk sc) → (s.mem.st = .syncing ∨ s.mem.st = .member) →
    ∃ t, exec (.windowEnd 0) s = .next t ∧ t.now = max s.now w.due ∧
      (∀ r, s.cat.responder = some r → r.phase ≠ .settling → t.cat.responder = some r) ∧
      (s.cat.responder = none → 1 ≤ count → ∃ r, t.cat.responder = some r ∧ r.requester = k ∧ r.next = first ∧
        r.last = first + count - 1 ∧ r.retries = 0 ∧
        (if (s.dir.lookup first).notHeld then ∃ n, longestGone s.dir first r.last n ∧
          r.phase = .offered (.gone k first n) ∧ t.sel.responder = some (.gone k first n)
        else r.phase = .reading none ∧ ∃ q, t.arb.responder = some q ∧ q.rank = 4))) ∧
  ∀ (s : State) (r : ResponderCtx), s.resetHeld = false → s.cat.responder = some r →
    (r.phase = .reading none → s.grantable .responder = true → ∃ t, exec .replayReadGrant s = .next t ∧
      s.KeepsFixed t ∧ t.now = s.now ∧ t.dir = s.dir ∧ t.bus = s.bus ∧ t.conf = s.conf ∧ t.mem = s.mem ∧ t.port = s.port ∧
      ((s.arb.localPort ≠ none ∨ s.arb.sweep ≠ none) → grantsByRank t) ∧
      (match s.dir.lookup r.next with
      | .committed i => t.cat = s.cat ∧ t.portOp = some (.replayRead (.replay r.requester r.next i.origin i.tag
          (arrayReadBytes s.array (r.next % 4096 * 256) i.length)) true)
      | .filling => t.cat.responder = some { r with phase := .settling } ∧ t.arb.grant = none
      | .tentative _ => t.cat.responder = some { r with phase := .settling } ∧ t.arb.grant = none
      | _ => t.arb.grant = none ∧ ∃ n, (r.next ≤ r.last → longestGone s.dir r.next r.last n) ∧ t.sel.responder = some (.gone r.requester r.next n) ∧
          t.cat.responder = some { r with phase := .offered (.gone r.requester r.next n) })) ∧
    (∀ b, r.phase = .reading none → s.portOp = some (.replayRead b true) → ∃ t, exec .replayReadComplete s = .next t ∧
      t.arb.grant = none ∧ s.KeepsFixed t ∧ t.now = s.now ∧ t.dir = s.dir ∧ t.bus = s.bus ∧ t.conf = s.conf ∧
      t.mem = s.mem ∧ t.port = s.port ∧
      (s.inGroup = true → t.sel.responder = some b ∧ t.cat.responder = some { r with phase := .offered b }) ∧
      (s.inGroup = false → t.cat.responder = some { r with phase := .reading (some b) }))

/-- R174, R175, R22, R142: a READ is judged at its grant: a class without data is answered at once and the port given up;
TENTATIVE and COMMITTED are read from the cell in the same grant and answered with the data when the read completes. Requests
that waited through the grant, given up or not, are then granted by rank (R141). -/
def Obligations.LocalReadIsAnsweredByItsClass : Prop :=
  ∀ s : State, s.resetHeld = false →
    (∀ g, s.port.slot = some (.read g) → s.grantable .localPort = true → ∃ t, exec .localReadGrant s = .next t ∧
      let noData := fun k => t.arb.grant = none ∧ t.port = { s.port with
        phase := .ready, slot := none, response := some (.noData k g) }
      let data := fun (i : RecordInfo) m => t.port = s.port ∧ t.portOp = some (.localRead (.data g i.origin i.tag m
        (arrayReadBytes s.array (g % 4096 * 256) i.length)))
      (match s.dir.window with
      | none => noData .notYet
      | some w =>
        if w.high < g then noData .notYet
        else if g < w.low then noData .expired
        else match s.dir.held g with
          | some (.gap _) => noData .gap
          | some (.lost _) => noData .lost
          | some (.filling ..) => noData .filling
          | some (.tentative _ i) => data i true
          | some (.committed _ i) => data i false
          | none => noData .expired) ∧
      ((s.arb.responder ≠ none ∨ s.arb.sweep ≠ none) → grantsByRank t) ∧
      s.KeepsFixed t ∧ t.now = s.now ∧ t.dir = s.dir ∧ t.bus = s.bus ∧ t.conf = s.conf ∧ t.mem = s.mem ∧ t.cat = s.cat) ∧
    (∀ a, s.portOp = some (.localRead a) → ∃ t, exec .localReadComplete s = .next t ∧ t.arb.grant = none ∧
      t.port = { s.port with phase := .ready, slot := none, response := some a } ∧
      s.KeepsFixed t ∧ t.now = s.now ∧ t.dir = s.dir ∧ t.bus = s.bus ∧ t.conf = s.conf ∧ t.mem = s.mem ∧ t.cat = s.cat)

/-! ## Sweeps, temperature, hold -/

/-- R143, R145, R147: a granted slice holds the port for the slice duration of the mode and consumes the licence; its
completion lowers the balance by 1, advances the slice position and frees the port. R146, R150: the own QUIET, confirmed,
gives the licence, and a request at rank 6 or above waits unless a slice is granted; voided, it is offered again while it is
due. -/
def Obligations.SlicesLowerTheBalance : Prop :=
  (∀ s : State, s.resetHeld = false →
    (∀ q, s.arb.sweep = some q → (q.rank = 1 ∨ q.rank = 6 ∨ q.rank = 7) → s.grantable .sweep = true →
      ∃ t, exec .sweepSliceGrant s = .next t ∧
        t.arb.grant = some {
          op := .slice, rank := q.rank
          ends := some (s.now + (if s.straps.slice = 1 then 1700 else if s.straps.slice = 2 then 950 else 3000)) } ∧
        t.arb.sweep = none ∧ t.swp = { s.swp with licence := false, quietSince := t.swp.quietSince } ∧ s.KeepsFixed t ∧
        t.now = s.now ∧ t.dir = s.dir ∧ t.bus = s.bus ∧ t.conf = s.conf ∧ t.mem = s.mem ∧ t.cat = s.cat ∧ t.port = s.port) ∧
    (∀ g e, s.arb.grant = some g → g.op = .slice → g.ends = some e → -7 ≤ s.swp.balance →
      ∃ t, exec .sweepSliceComplete s = .next t ∧ t.now = max s.now e ∧ t.arb.grant = none ∧
        t.swp = { s.swp with
          balance := s.swp.balance - 1
          position := (s.swp.position + 1) % (if s.straps.slice = 1 then 2 else if s.straps.slice = 2 then 4 else 1)
          quietSince := t.swp.quietSince } ∧ s.KeepsFixed t ∧
        t.dir = s.dir ∧ t.bus = s.bus ∧ t.conf = s.conf ∧ t.mem = s.mem ∧ t.cat = s.cat ∧ t.port = s.port)) ∧
  (∀ (s : State) (w : WindowRun) (lowRun : Nat) (b : FrameBody), windowEnds s w → w.own = true →
    s.sel.inFlight = some { sender := .sweep, body := b, discard := false } → s.sel.sweep = none → s.swp.licence = false →
    ∃ t, exec (.windowEnd lowRun) s = .next t ∧ t.now = max s.now w.due ∧ t.sel.inFlight = none ∧
      t.swp.licence = ownStands w lowRun ∧ t.swp.balance = s.swp.balance ∧ t.swp.position = s.swp.position ∧
      (ownStands w lowRun = true → s.sliceGranted = false → s.onHold = false →
        ∃ q, t.arb.sweep = some q ∧ q.rank ≤ 6) ∧
      t.sel.sweep = if ownStands w lowRun = false ∧ s.inGroup = true ∧ 6 ≤ s.swp.balance ∧ s.swp.balance ≤ 7 then
        some (.quiet (if s.straps.slice = 1 then 190 else if s.straps.slice = 2 then 115 else 320)) else none)

/-- R145, R149, R154: the interval timer's expiry raises the balance by 1, in COOL at every second expiry, and restarts the
timer with the length of the class; at an idle run of 200 bt in the group, or a port quiet time of 200 microseconds outside
it, an ordinary request is raised at rank 7. R146: a balance of 8 makes the request one at rank 1. R148, R154: at 1 to 7 an
ordinary request is raised at rank 7, in the group only while no pending entry is held and no frame is on the bus. R150: at 6 and 7
a member offers a QUIET, unless a licence stands or one is offered or in flight; elsewhere none is offered. -/
def Obligations.IntervalsAndPullInsRaiseSlices : Prop :=
  ∀ (s : State) (e : Nat), s.resetHeld = false →
    (s.swp.intervalEnd = some e → s.swp.balance ≤ 7 → ∃ t, exec .intervalTimerExpiry s = .next t ∧
      t.now = max s.now e ∧
      t.swp = { s.swp with
        balance := if s.temp.cls = .cool ∧ s.swp.cool = .skip then s.swp.balance else s.swp.balance + 1
        cool := if s.temp.cls = .cool then (if s.swp.cool = .count then .skip else .count) else s.swp.cool
        intervalEnd := some (e + (if s.straps.slice = 1 then 20000 else if s.straps.slice = 2 then 10000 else 40000) /
          (match s.temp.cls with | .cool => 1 | .normal => 1 | .hot => 2 | .critical => 4))
        quietSince := t.swp.quietSince } ∧ s.KeepsFixed t ∧ t.dir = s.dir ∧ t.bus = s.bus ∧ t.conf = s.conf ∧
        t.mem = s.mem ∧ t.cat = s.cat ∧ t.port = s.port ∧ t.arb.grant = s.arb.grant ∧
      (t.swp.balance = 8 → s.onHold = false → s.sliceGranted = false → ∃ q, t.arb.sweep = some q ∧ q.rank ≤ 1 ∧
        (s.arb.sweep = none → q.rank = 1)) ∧
      (1 ≤ t.swp.balance → t.swp.balance ≤ 7 → s.onHold = false → s.sliceGranted = false → s.swp.licence = false →
        s.arb.sweep = none →
        let mayAsk := (s.mem.st ≠ .syncing ∧ s.mem.st ≠ .member) ∨ (s.conf.entries = [] ∧ s.bus.rx ≠ .frame);
        (mayAsk → ∃ q, t.arb.sweep = some q ∧ q.rank = 7) ∧ (¬ mayAsk → t.arb.sweep = none)) ∧
      (let due := (s.mem.st = .syncing ∨ s.mem.st = .member) ∧ 6 ≤ t.swp.balance ∧ t.swp.balance ≤ 7;
        (due → s.swp.licence = false → s.sel.sweep = none → (∀ f, s.sel.inFlight = some f → f.sender ≠ .sweep) →
          t.sel.sweep = some (.quiet (if s.straps.slice = 1 then 190 else if s.straps.slice = 2 then 115 else 320))) ∧
        (due → s.sel.sweep ≠ none → t.sel.sweep = s.sel.sweep) ∧
        (due → s.sel.sweep = none → (s.swp.licence = true ∨ ∃ f, s.sel.inFlight = some f ∧ f.sender = .sweep) →
          t.sel.sweep = none) ∧
        (¬ due → t.sel.sweep = none))) ∧
    (s.swp.idleSince = some e → (s.mem.st = .syncing ∨ s.mem.st = .member) → s.bus.rx = .idle → -7 ≤ s.swp.balance →
      s.swp.balance ≤ 0 → s.swp.licence = false → s.sliceGranted = false → s.arb.sweep = none →
      ∃ t, exec .pullIn s = .next t ∧ t.arb.sweep = some {
          rank := 7, since := max s.now (e + s.bt 200), atFree := s.arb.grant.isNone } ∧
        Follows { s with now := max s.now (e + s.bt 200) } t) ∧
    (s.swp.quietSince = some e → s.inGroup = false → s.onHold = false → -7 ≤ s.swp.balance → s.swp.balance ≤ 0 →
      s.swp.licence = false → s.sliceGranted = false → s.arb.sweep = none →
      (s.conf.write ≠ none ∨ s.conf.entries.any s.eligible = false) → s.arb.writer = none →
      ∃ t, exec .portQuietPullIn s = .next t ∧ t.arb.sweep = some {
          rank := 7, since := max s.now (e + 2000), atFree := s.arb.grant.isNone } ∧
        Follows { s with now := max s.now (e + 2000) } t)

/-- R155, R156, R157: the first evaluation sets the class by its ranges; a later one rises by the ranges and falls only below
a boundary by 3 degrees. A change posts TEMPERATURE and cuts the running interval and the hold timer; to COOL it sets the
cool mark to COUNT, in HELD and RESUMING too. The model's choices: the operand is the temperature in degrees, rounded down
(notes/assumptions/24.md); exactly 3 degrees below a boundary the class stays (notes/assumptions/44.md); the cool mark
(notes/assumptions/45.md). -/
def Obligations.TemperatureSetsTheClass : Prop :=
  ∀ (s : State) (celsius : Int) (e : Nat), s.resetHeld = false → s.temp.nextEval = some e →
    let byRange : TempClass :=
      if celsius < 40 then .cool else if celsius < 85 then .normal else if celsius < 100 then .hot else .critical
    let next : TempClass :=
      if s.temp.evaluated = false then byRange
      else match s.temp.cls with
        | .cool => byRange
        | .normal => if celsius < 37 then .cool else if 85 ≤ celsius then byRange else .normal
        | .hot => if celsius < 37 then .cool else if celsius < 82 then .normal else if 100 ≤ celsius then .critical else .hot
        | .critical =>
          if celsius < 37 then .cool else if celsius < 82 then .normal else if celsius < 97 then .hot else .critical
    let n := max s.now e
    exec (.temperatureEvaluation celsius) s = .next (if next = s.temp.cls then
      { s with now := n, temp := { s.temp with evaluated := true, nextEval := some (e + 10000) } }
    else { s with
      now := n
      temp := { cls := next, evaluated := true, nextEval := some (e + 10000) }
      port := s.port.post (.temperature next)
      swp := { s.swp with
        intervalEnd := s.swp.intervalEnd.map fun i => min i (n + intervalLength s.straps.slice next)
        holdTimer := s.swp.holdTimer.map fun i => min i (n + intervalLength 0 next)
        cool := if next = .cool then .count else s.swp.cool } })

/-- R162, R163: the hold timer's expiry restarts it and requests a pass at rank 8 if none waits or runs; a granted internal
pass holds the port for 300 microseconds, and its completion frees the port and ends it. -/
def Obligations.HoldPassesAreSpaced : Prop :=
  ∀ s : State, s.resetHeld = false →
    (∀ e, s.swp.holdTimer = some e → exec .holdTimerExpiry s = .next (
      if s.swp.passState = some .none then { s with
        now := max s.now e
        swp := { s.swp with
          holdTimer := some (e + intervalLength 0 s.temp.cls), passState := some .waiting, quietSince := none }
        arb := { s.arb with sweep := some { rank := 8, since := max s.now e, atFree := s.arb.grant.isNone } } }
      else { s with
        now := max s.now e, swp := { s.swp with holdTimer := some (e + intervalLength 0 s.temp.cls) } })) ∧
    (∀ q, s.swp.passState = some .waiting → s.arb.sweep = some q → q.rank = 8 → s.grantable .sweep = true →
      ∃ t, exec .internalPassGrant s = .next t ∧
        t = { s with swp := { s.swp with passState := some .running, quietSince := none }, arb := t.arb } ∧
        t.arb.grant = some { op := .internalPass, rank := 8, ends := some (s.now + 3000) } ∧ t.arb.sweep = none) ∧
    (∀ g e, s.arb.grant = some g → g.op = .internalPass → g.ends = some e → ∃ t, exec .internalPassComplete s = .next t ∧
      t = { s with
        now := max s.now e
        arb := { s.arb with grant := none }
        swp := { s.swp with
          passState := s.swp.passState.map (fun _ => .none), quietSince := t.swp.quietSince } })

/-- R164, R165: the exit pass, granted at rank 2, holds the port for 300 microseconds; at its completion the sweep engine
starts again with a balance and position of 0 and the station is LISTENING with its bus interface in SYNC_WAIT. -/
def Obligations.ExitPassLeadsToListening : Prop :=
  ∀ s : State, s.resetHeld = false →
    (∀ q, s.arb.sweep = some q → q.rank = 2 → s.grantable .sweep = true → ∃ t, exec .exitPassGrant s = .next t ∧
      t = { s with arb := t.arb, swp := { s.swp with quietSince := none } } ∧
      t.arb.grant = some { op := .exitPass, rank := 2, ends := some (s.now + 3000) } ∧ t.arb.sweep = none) ∧
    (∀ g e, s.arb.grant = some g → g.op = .exitPass → g.ends = some e → s.bus.rx = .off → s.bus.windows = [] →
      s.filter.receive = none → ∃ t, exec .exitPassComplete s = .next t ∧ t.now = max s.now e ∧
        t.arb.grant = none ∧ t.mem.st = .listening ∧ t.mem.learned = none ∧ t.mem.listenOwed = true ∧
        t.bus.rx = .syncWait ∧ t.bus.recessiveSince = t.now ∧ t.swp.balance = 0 ∧ t.swp.position = 0 ∧
        t.swp.cool = .count ∧ t.swp.licence = false ∧
        t.swp.intervalEnd = some (t.now + intervalLength s.straps.slice s.temp.cls) ∧
        t.port = s.port.post (.state .listening) ∧ s.KeepsFixed t ∧ t.dir = s.dir ∧ t.cat = s.cat ∧
        t.mem.peers = s.mem.peers)

/-! ## What every step keeps -/

/-- The record array keeps the canonical form in which the model holds its bytes (R1, R139; the form is the model's own,
notes/assumptions/31.md, and so is the value of a byte that nothing has written, notes/assumptions/9.md). -/
def Obligations.StepsKeepTheArrayCanonical : Prop :=
  ∀ s t : State, s.ArrayCanonical → step s = .next t → t.ArrayCanonical

/-- R60, R81, R144, R145, R167, R179: at most 32 notices, 4 pending and 8 outbound entries, a tag counter from 1 to 65,535, a
balance from -8 to 8, a budget of at most 16. -/
def Obligations.StepsKeepTheCountsInRange : Prop :=
  ∀ s t : State, s.port.Bounded → s.CountsBounded → step s = .next t → t.port.Bounded ∧ t.CountsBounded

/-- R2, R3, R4: a window that is not empty spans at most 4,096 GSNs and the frontier is its high plus one; every GSN of the
window is held in its slot, every descriptor holds a GSN of the window, and an empty window leaves every slot VACANT. -/
def Obligations.StepsKeepTheWindowShaped : Prop :=
  ∀ s t : State, s.WindowShaped → step s = .next t → t.WindowShaped ∧
    (s.dir.Filled → t.dir.Filled ∧ (t.dir.window = none → ∀ n, t.dir.slotAt n = none))

/-- R2, R5: every descriptor stands in the slot of its GSN, no slot is listed twice, and the gap count and the lost count are
the numbers of GAP and LOST slots. R106: a MEMBER's gap count is 0, in SYNCING it is above 0. The received set of the catch-up
context stays listed in rising order. -/
def Obligations.StepsKeepTheSlotsCounted : Prop :=
  ∀ s t : State, step s = .next t → (s.dir.Counted → t.dir.Counted) ∧ (s.StateFollowsGaps → t.StateFollowsGaps) ∧
    (s.ReceivedRises → t.ReceivedRises)

/-- R85: the head, where it is neither on the bus nor in a wait, is CONTENDING and its RECORD offered exactly while the station
is SYNCING or MEMBER, no entry of the peer table carries a quiet mark, fewer than 4 entries are pending and the frontier is at
most 2^48 - 1. R96: on an idle bus the choice is absent only when no allowed offer is present, and a choice newly made is the first
allowed offer in the order of R96. -/
def Obligations.StepsKeepTheHeadInLine : Prop :=
  ∀ s t : State, step s = .next t →
    (s.HeadFollowsConditions → t.HeadFollowsConditions ∧
      let starts := (t.mem.st = .syncing ∨ t.mem.st = .member) ∧ (∀ k, (t.mem.peer k).quiet = none) ∧
        t.conf.entries.length < 4 ∧ t.dir.frontier ≤ 2 ^ 48 - 1;
      (∀ h rest, t.out.entries = h :: rest → h.state = .waiting → ¬ starts) ∧
      (∀ h rest, t.out.entries = h :: rest → h.state = .contending → starts) ∧
      (t.sel.record = true ↔ ∃ h rest, t.out.entries = h :: rest ∧ h.state = .contending)) ∧
    (s.ChoiceMade → t.ChoiceMade) ∧
    (∀ who, t.sel.choice = some who → s.sel.choice ≠ some who → t.bus.rx = .idle ∧ t.offerAllowed who ∧
      ∀ x, t.offerAllowed x → t.choiceOrder who ≤ t.choiceOrder x)

/-- R1, R139: no command but a hardware reset and the completion of a write changes a byte of the record array. -/
def Obligations.OnlyWritesChangeTheArray : Prop :=
  ∀ (c : Instr) (s t : State), c ≠ .hardwareReset → c ≠ .commitWriteComplete → c ≠ .earlyWriteComplete →
    exec c s = .next t → t.array = s.array

/-! ## Formats -/

/-- R45 to R54, R182, R183: a frame with its fields in range, received as it was sent, is classified as sound with exactly its
sender, its body and its check, and with the scope of R52. R27, R33: its levels on the data line (start bit, data bits with the
most significant first, stop bit of each byte) give exactly its bytes back, with no framing error, at the end that its length
byte sets. R34: broken off within a byte, with 12 bt of recessive line, they give a truncated frame of the bytes completed before.
R27: a start bit that reads recessive or a stop bit that reads dominant is a framing error of its byte. -/
def Obligations.FrameSentIsFrameReceived : Prop :=
  (∀ (levels : List FramingLevels) (i : Nat), i ∈ framingErrors levels ↔
    ∃ f, levels[i]? = some f ∧ (f.start = true ∨ f.stop = false)) ∧
  (∀ (x : Byte) (f : FramingLevels) (i : Nat), (byteLevels x f).length = 10 ∧ (byteLevels x f)[0]? = some f.start ∧
    (i < 8 → (byteLevels x f)[1 + i]? = some (x.getMsbD i)) ∧ (byteLevels x f)[9]? = some f.stop) ∧
  ∀ (group : Byte) (k me : Station) (b : FrameBody) (own : Bool), b.inRange = true →
    let sent := frameBytes group k b
    let sound : FramingLevels := { start := false, stop := true }
    frameFromLevels (sent.flatMap fun x => byteLevels x sound) = some (.frameEnd sent (List.replicate sent.length sound)) ∧
    (∀ n x j, n + 2 < sent.length → sent[n]? = some x → 1 ≤ j → j ≤ 9 →
      frameFromLevels (((sent.take n).flatMap fun y => byteLevels y sound) ++ (byteLevels x sound).take j ++
        List.replicate 12 true) = some (.frameTruncated (sent.take n) (List.replicate n sound))) ∧
    ∃ scope, ({ bytes := frameBytes group k b, framing := [], truncated := false, own := own, readback := false } :
      ReceiveRecord).classify (some group) me = .sound k b (frameCheck (coveredBytes group k b)) scope ∧
      (scope = .addressedHere ↔ (∃ g n, b = .gone me g n) ∨ (∃ g o t p, b = .replay me g o t p)) ∧
      (scope = .addressedElsewhere ↔ (∃ q g n, q ≠ me ∧ b = .gone q g n) ∨ (∃ q g o t p, q ≠ me ∧ b = .replay q g o t p))

/-- R168 to R170, R184: every well-formed command of the local port, sent as its command transaction, is decoded as itself, and
a malformed transaction as no command. As bits on SDI, most significant bit first, bits after the last whole byte are
discarded; F0h begins a collect transaction; a transaction that ends before a whole byte, or that begins before the release of
hardware reset, is none (notes/assumptions/30.md). -/
def Obligations.TransactionsDecodeAsSent : Prop :=
  (∀ i : Instr, Sys2Proof.Laws.Transaction.Statement i) ∧
  (∀ (i : Instr) (opening : Byte) (params : List Byte) (trailing : List Bool), i.WellFormed →
    encodeTransaction i = some (opening, params) → trailing.length < 8 →
    portTransaction false (bitsOf (opening :: params) ++ trailing) = some i) ∧
  (∀ (params : List Byte) (trailing : List Bool), trailing.length < 8 →
    portTransaction false (bitsOf (0xF0 :: params) ++ trailing) = some (.collect params.length)) ∧
  (∀ bits : List Bool, bits.length < 8 → portTransaction false bits = none) ∧
  (∀ bits : List Bool, portTransaction true bits = none)
end

