-- ==== Sys2Proof/Laws/Array.lean ====
section
/-! SUPPORT. The sorted maps and the record array: every operation keeps the canonical form, and what a read gives after a
write. -/

namespace Sys2Proof.Machine

/-! ## Sorted maps -/

variable {α : Type}

@[simp] theorem mapGet_insert (k j : Nat) (v : α) (m : List (Nat × α)) :
    mapGet j (mapInsert k v m) = if k = j then some v else mapGet j m := by
  induction m with
  | nil => simp [mapInsert, mapGet]
  | cons e rest ih =>
    obtain ⟨k', v'⟩ := e
    simp only [mapInsert]
    split
    · simp [mapGet]
    · split
      · rename_i h; subst h; simp only [mapGet]; split <;> rfl
      · rename_i h
        simp only [mapGet, ih]
        split
        · rename_i e; subst e; simp [h]
        · rfl

@[simp] theorem mapGet_erase (k j : Nat) (m : List (Nat × α)) :
    mapGet j (mapErase k m) = if k = j then none else mapGet j m := by
  induction m with
  | nil => simp [mapErase, mapGet]
  | cons e rest ih =>
    obtain ⟨k', v'⟩ := e
    simp only [mapErase, List.filter_cons, bne_iff_ne, ne_eq, mapGet] at ih ⊢
    by_cases h : k' = k
    · subst h; simp only [not_true_eq_false, if_false, ih]; split <;> rfl
    · simp only [h, not_false_eq_true, if_true, mapGet, ih]
      split
      · rename_i e; subst e; simp [Ne.symm h]
      · rfl

/-- A sorted map is strictly rising in its keys. -/
theorem mapSorted_iff (m : List (Nat × α)) : mapSorted m = true ↔ m.Pairwise fun a b => a.1 < b.1 := by
  induction m with
  | nil => simp [mapSorted]
  | cons e rest ih =>
    obtain ⟨k, v⟩ := e
    cases rest with
    | nil => simp [mapSorted]
    | cons e' rest' =>
      obtain ⟨k', v'⟩ := e'
      simp only [mapSorted, Bool.and_eq_true, decide_eq_true_eq, ih, List.pairwise_cons, List.mem_cons, forall_eq_or_imp]
      constructor
      · rintro ⟨h, p, q⟩
        exact ⟨⟨h, fun a ha => h.trans (p a ha)⟩, p, q⟩
      · rintro ⟨⟨h, _⟩, p, q⟩
        exact ⟨h, p, q⟩

theorem mem_mapInsert {k : Nat} {v : α} {m : List (Nat × α)} {e : Nat × α} (h : e ∈ mapInsert k v m) :
    e = (k, v) ∨ e ∈ m := by
  induction m with
  | nil => simpa [mapInsert] using h
  | cons x rest ih =>
    simp only [mapInsert] at h
    split at h
    · simpa using h
    · split at h
      · simp only [List.mem_cons] at h ⊢; tauto
      · simp only [List.mem_cons] at h ⊢
        rcases h with h | h
        · exact .inr (.inl h)
        · rcases ih h with h | h <;> tauto

theorem mapSorted_insert (k : Nat) (v : α) (m : List (Nat × α)) (h : mapSorted m = true) :
    mapSorted (mapInsert k v m) = true := by
  rw [mapSorted_iff] at h ⊢
  induction m with
  | nil => simp [mapInsert]
  | cons x rest ih =>
    obtain ⟨k', v'⟩ := x
    rw [List.pairwise_cons] at h
    simp only [mapInsert]
    split
    · rename_i lt
      simp only [List.pairwise_cons, List.mem_cons, forall_eq_or_imp]
      exact ⟨⟨lt, fun a ha => lt.trans (h.1 a ha)⟩, h.1, h.2⟩
    · split
      · rename_i _ e; subst e; rw [List.pairwise_cons]; exact ⟨h.1, h.2⟩
      · rename_i nlt ne
        rw [List.pairwise_cons]
        refine ⟨fun a ha => ?_, ih h.2⟩
        rcases mem_mapInsert ha with e | e
        · subst e; simp; omega
        · exact h.1 a e

theorem mapSorted_erase (k : Nat) (m : List (Nat × α)) (h : mapSorted m = true) : mapSorted (mapErase k m) = true := by
  rw [mapSorted_iff] at h ⊢
  exact h.filter _

/-! ## The record array -/

theorem arrayWrite_wf (m : List Host.Cell) (a : Nat) (b : Byte) (h : Memory.wf m = true) :
    Memory.wf (arrayWrite m a b) = true := by
  simp only [Memory.wf, Bool.and_eq_true, List.all_eq_true] at h ⊢
  unfold arrayWrite
  split
  · exact ⟨mapSorted_erase _ _ h.1, fun e he => h.2 e (List.mem_of_mem_filter he)⟩
  · rename_i ne
    refine ⟨mapSorted_insert _ _ _ h.1, fun e he => ?_⟩
    rcases mem_mapInsert he with e | e
    · subst e; simpa using ne
    · exact h.2 _ e

theorem arrayWriteBytes_wf (l : List Byte) (m : List Host.Cell) (a : Nat) (h : Memory.wf m = true) :
    Memory.wf (arrayWriteBytes m a l) = true := by
  induction l generalizing m a with
  | nil => exact h
  | cons b rest ih => exact ih _ _ (arrayWrite_wf m a b h)

theorem arrayAbandon_wf (l : List Byte) (m : List Host.Cell) (a key i : Nat) (h : Memory.wf m = true) :
    Memory.wf (arrayAbandon m a key i l) = true := by
  induction l generalizing m i with
  | nil => exact h
  | cons b rest ih =>
    rw [arrayAbandon]
    apply ih
    split
    · exact arrayWrite_wf _ _ _ h
    · exact h

/-- A byte written reads back, every other byte as before. -/
@[simp] theorem arrayRead_write (m : List Host.Cell) (a j : Nat) (b : Byte) :
    arrayRead (arrayWrite m a b) j = if a = j then b else arrayRead m j := by
  unfold arrayRead arrayWrite
  split
  · rename_i e; subst e; simp only [mapGet_erase]; split <;> rfl
  · simp only [mapGet_insert]; split <;> rfl

/-- Outside the bytes written, a read gives what it gave before. -/
theorem arrayRead_writeBytes_outside (l : List Byte) (m : List Host.Cell) (a j : Nat) (h : j < a ∨ a + l.length ≤ j) :
    arrayRead (arrayWriteBytes m a l) j = arrayRead m j := by
  induction l generalizing m a with
  | nil => rfl
  | cons b rest ih =>
    simp only [List.length_cons] at h
    rw [arrayWriteBytes, ih _ _ (by omega), arrayRead_write, if_neg (by omega)]

/-- The bytes written read back. -/
theorem arrayReadBytes_writeBytes (l : List Byte) (m : List Host.Cell) (a : Nat) :
    arrayReadBytes (arrayWriteBytes m a l) a l.length = l := by
  induction l generalizing m a with
  | nil => rfl
  | cons b rest ih =>
    rw [List.length_cons, arrayReadBytes, arrayWriteBytes, ih, arrayRead_writeBytes_outside _ _ _ _ (by omega),
      arrayRead_write, if_pos rfl]

/-- Outside the payload's bytes, an abandoned write leaves every byte as it was. -/
theorem arrayRead_abandon_outside (l : List Byte) (m : List Host.Cell) (a key i j : Nat)
    (h : j < a + i ∨ a + i + l.length ≤ j) : arrayRead (arrayAbandon m a key i l) j = arrayRead m j := by
  induction l generalizing m i with
  | nil => rfl
  | cons b rest ih =>
    simp only [List.length_cons] at h
    rw [arrayAbandon, ih _ _ (by omega)]
    split
    · rw [arrayRead_write, if_neg (by omega)]
    · rfl

end Sys2Proof.Machine
end

