-- ==== Sys2Proof/Laws/Counts.lean ====
section
/-! SUPPORT. The directory's counts: one slot's change, and with it every operation of the directory, keeps the gap count and
the lost count equal to the numbers of GAP and LOST slots, and every descriptor in the slot of its GSN. -/

namespace Sys2Proof.Machine

/-! ## Counting in sorted maps -/

variable {α : Type}

/-- A key below all of a map's keys has no value. -/
theorem mapGet_of_above {k : Nat} {m : List (Nat × α)} (h : ∀ e ∈ m, k < e.1) : mapGet k m = none := by
  induction m with
  | nil => rfl
  | cons e rest ih =>
    obtain ⟨k', v'⟩ := e
    have := h (k', v') (by simp)
    rw [mapGet, if_neg (by simp at this; omega)]
    exact ih fun e he => h e (by simp [he])

/-- An insertion counts the new value and no longer the old one. -/
theorem countP_insert (p : Option α → Bool) (n : p none = false) (k : Nat) (v : α) (m : List (Nat × α))
    (h : mapSorted m = true) :
    (mapInsert k v m).countP (fun e => p (some e.2)) + (p (mapGet k m)).toNat =
      m.countP (fun e => p (some e.2)) + (p (some v)).toNat := by
  rw [mapSorted_iff] at h
  induction m with
  | nil => simp [mapInsert, mapGet, n, List.countP_cons]; cases p (some v) <;> rfl
  | cons e rest ih =>
    obtain ⟨k', v'⟩ := e
    rw [List.pairwise_cons] at h
    simp only [mapInsert, mapGet]
    split
    · rename_i lt
      rw [if_neg (by omega), mapGet_of_above (fun e he => lt.trans (h.1 e he)), n]
      simp only [List.countP_cons]
      cases p (some v) <;> rfl
    · split
      · rename_i _ e
        subst e
        rw [if_pos rfl]
        simp only [List.countP_cons]
        cases p (some v) <;> cases p (some v') <;> simp 
      · rename_i e
        rw [if_neg (fun c => e c.symm)]
        have := ih h.2
        simp only [List.countP_cons]
        omega

/-- An erasure no longer counts the old value. -/
theorem countP_erase (p : Option α → Bool) (n : p none = false) (k : Nat) (m : List (Nat × α))
    (h : mapSorted m = true) :
    (mapErase k m).countP (fun e => p (some e.2)) + (p (mapGet k m)).toNat = m.countP (fun e => p (some e.2)) := by
  rw [mapSorted_iff] at h
  induction m with
  | nil => simp [mapErase, mapGet, n]
  | cons e rest ih =>
    obtain ⟨k', v'⟩ := e
    rw [List.pairwise_cons] at h
    have := ih h.2
    by_cases c : k' = k
    · subst c
      have := mapGet_of_above (k := k') (m := rest) (fun e he => h.1 e he)
      simp only [mapGet, if_pos, List.countP_cons, mapErase, List.filter_cons, bne_self_eq_false] at *
      simp only [this, n] at *
      cases p (some v') <;> simp_all
    · simp only [mapGet, List.countP_cons, mapErase, List.filter_cons, bne_iff_ne, ne_eq, c, not_false_eq_true, if_true, if_false] at *
      omega

theorem mem_mapErase {k : Nat} {m : List (Nat × α)} {e : Nat × α} (h : e ∈ mapErase k m) : e ∈ m := List.mem_of_mem_filter h

/-! ## The directory's operations -/

namespace Directory

variable {d : Directory}

/-- One slot takes a descriptor of its own GSN, or becomes VACANT. -/
theorem Counted.setSlot {n : Nat} {x : Option Slot} (h : d.Counted) (k : ∀ v ∈ x, n = slotOf v.gsn) :
    (d.setSlot n x).Counted := by
  obtain ⟨a, b, g, l⟩ := h
  cases x with
  | none =>
    have i := countP_erase isGapSlot rfl n d.slots a
    have j := countP_erase isLostSlot rfl n d.slots a
    refine ⟨mapSorted_erase _ _ a, fun e he => b e (mem_mapErase he), ?_, ?_⟩
    · simp only [Directory.setSlot, Directory.slotAt, isGapSlot, Bool.toNat_false] at *; omega
    · simp only [Directory.setSlot, Directory.slotAt, isLostSlot, Bool.toNat_false] at *; omega
  | some v =>
    have i := countP_insert isGapSlot rfl n v d.slots a
    have j := countP_insert isLostSlot rfl n v d.slots a
    refine ⟨mapSorted_insert _ _ _ a, fun e he => ?_, ?_, ?_⟩
    · rcases mem_mapInsert he with e | e
      · subst e; exact k v rfl
      · exact b _ e
    · simp only [Directory.setSlot, Directory.slotAt] at *; omega
    · simp only [Directory.setSlot, Directory.slotAt] at *; omega

theorem Counted.put {x : Slot} (h : d.Counted) : (d.put x).Counted := h.setSlot (by simp)

theorem Counted.vacate {g : Nat} (h : d.Counted) : (d.vacate g).Counted := h.setSlot (by simp)

theorem Counted.foldl {β : Type} {f : Directory → β → Directory} (k : ∀ d b, d.Counted → (f d b).Counted) (l : List β)
    (h : d.Counted) : (l.foldl f d).Counted := by
  induction l generalizing d with
  | nil => exact h
  | cons b rest ih => exact ih (k _ _ h)

theorem Counted.markLost {l : List Nat} (h : d.Counted) : (d.markLost l).Counted :=
  h.foldl (fun _ _ c => by split; exacts [c.put, c]) l

theorem Counted.rollBack {e : PendEntry} (h : d.Counted) : (d.rollBack e).Counted := by
  unfold Directory.rollBack; split
  · exact h.put
  · exact h

theorem Counted.raise {w : Window} {a b c : Nat} (h : d.Counted) : (d.raise w a b c).dir.Counted :=
  Counted.foldl (fun _ _ c => c.put) _ (Counted.foldl (fun _ _ c => c.vacate) _ h)

theorem Counted.live {x : Slot} (h : d.Counted) : (d.live x).dir.Counted := by
  unfold Directory.live
  split
  · exact h.put
  · dsimp only
    split
    · exact h
    · exact h.raise.put

theorem Counted.presence {p : Nat} (h : d.Counted) : (d.presence p).dir.Counted := by
  unfold Directory.presence
  repeat' split
  all_goals first
    | exact h
    | exact h.raise

theorem Counted.found (h : d.Counted) : d.found.Counted := h.markLost

theorem Counted.learnFresh {n f : Nat} (h : d.Counted) : (d.learnFresh n f).dir.Counted := by
  unfold Directory.learnFresh
  split
  · exact h
  · exact Counted.foldl (fun _ _ c => c.put) _ h

theorem Counted.reset : Directory.reset.Counted := by decide

theorem Counted.learn {n f : Nat} (h : d.Counted) : (d.learn n f).1.dir.Counted := by
  unfold Directory.learn
  repeat' split
  all_goals first
    | exact h
    | exact h.learnFresh
    | exact Counted.reset.learnFresh
    | exact h.raise

end Directory

end Sys2Proof.Machine
end

