-- ==== Sys2Proof/Laws/Filled.lean ====
section
/-! SUPPORT. The directory's slots: what each operation makes of a slot, and that every operation keeps the window filled
(R2, R3). -/

namespace Sys2Proof.Machine

namespace Directory

variable {d : Directory}

/-! ## One slot -/

@[simp] theorem slotAt_put (d : Directory) (x : Slot) (n : Nat) :
    (d.put x).slotAt n = if slotOf x.gsn = n then some x else d.slotAt n := mapGet_insert _ _ _ _

@[simp] theorem slotAt_vacate (d : Directory) (g n : Nat) :
    (d.vacate g).slotAt n = if slotOf g = n then none else d.slotAt n := mapGet_erase _ _ _

/-- A descriptor is held by its GSN alone. -/
theorem held_eq (d : Directory) (g : Nat) (x : Slot) : d.held g = some x ↔ d.slotAt (slotOf g) = some x ∧ x.gsn = g := by
  unfold Directory.held
  split
  · rename_i y e
    rw [e]
    split
    · rename_i h
      simp only [Option.some.injEq]
      exact ⟨fun k => ⟨k, k ▸ h⟩, And.left⟩
    · rename_i h
      simp only [Option.some.injEq, reduceCtorEq, false_iff, not_and]
      exact fun k c => h (k ▸ c)
  · rename_i e
    simp [e]

/-- GSNs that lie less than 4,096 apart have different slots. -/
theorem slotOf_inj {g h : Nat} (e : slotOf g = slotOf h) (a : g < h + 4096) (b : h < g + 4096) : g = h := by
  simp only [slotOf, Config.slotCount] at e
  omega

/-! ## Runs of slots -/

theorem slotAt_foldl_vacate (l : List Nat) (d : Directory) (n : Nat) :
    (l.foldl Directory.vacate d).slotAt n = if ∃ g ∈ l, slotOf g = n then none else d.slotAt n := by
  induction l generalizing d with
  | nil => simp
  | cons a rest ih =>
    rw [List.foldl_cons, ih, slotAt_vacate]
    by_cases h : slotOf a = n <;> by_cases k : ∃ g ∈ rest, slotOf g = n <;> simp [h, k]

/-- After a run of GAP slots has been opened, a slot is as before, or holds a GSN of the run. -/
theorem slotAt_foldl_gap (l : List Nat) (d : Directory) (n : Nat) :
    ((l.foldl (fun acc g => acc.put (.gap g)) d).slotAt n = d.slotAt n ∧ ∀ g ∈ l, slotOf g ≠ n) ∨
    ∃ g ∈ l, slotOf g = n ∧ (l.foldl (fun acc g => acc.put (.gap g)) d).slotAt n = some (.gap g) := by
  induction l generalizing d with
  | nil => simp
  | cons a rest ih =>
    rw [List.foldl_cons]
    rcases ih (d.put (.gap a)) with ⟨h, k⟩ | ⟨g, m, e, h⟩
    · by_cases c : slotOf a = n
      · exact .inr ⟨a, by simp, c, by rw [h, slotAt_put]; simp [Slot.gsn, c]⟩
      · refine .inl ⟨by rw [h, slotAt_put]; simp [Slot.gsn, c], ?_⟩
        simpa using ⟨c, k⟩
    · exact .inr ⟨g, by simp [m], e, h⟩

/-! ## The window stays filled -/

theorem Filled.reset : Directory.reset.Filled := ⟨fun _ h => (nomatch h), fun _ _ h => (nomatch h)⟩

/-- A slot that holds a GSN takes another descriptor of it. -/
theorem Filled.put {x : Slot} (h : d.Filled) (k : (d.held x.gsn).isSome = true) : (d.put x).Filled := by
  obtain ⟨y, hy⟩ := Option.isSome_iff_exists.1 k
  obtain ⟨ys, yg⟩ := (held_eq _ _ _).1 hy
  refine ⟨fun w hw g a b => ?_, fun n z hz => ?_⟩
  · obtain ⟨z, hz⟩ := Option.isSome_iff_exists.1 (h.1 w hw g a b)
    obtain ⟨zs, zg⟩ := (held_eq _ _ _).1 hz
    by_cases c : slotOf x.gsn = slotOf g
    · have : y = z := by rw [c, zs] at ys; exact (Option.some.inj ys).symm
      exact Option.isSome_iff_exists.2 ⟨x, (held_eq _ _ _).2 ⟨by simp [c], by rw [← yg, this, zg]⟩⟩
    · exact Option.isSome_iff_exists.2 ⟨z, (held_eq _ _ _).2 ⟨by simp [c, zs], zg⟩⟩
  · rw [slotAt_put] at hz
    split at hz
    · rename_i c
      cases hz
      obtain ⟨_, v, hv, q⟩ := h.2 _ _ ys
      rw [yg] at q
      exact ⟨c, v, hv, q⟩
    · exact h.2 n z hz

theorem Filled.setFrontier {f : Nat} (h : d.Filled) : ({ d with frontier := f } : Directory).Filled := h

theorem holdsGap_iff (d : Directory) (g : Nat) : d.holdsGap g = true ↔ d.held g = some (.gap g) := by
  simp [Directory.holdsGap]

theorem held_of_holdsGap {g : Nat} (h : d.holdsGap g = true) : (d.held g).isSome = true := by
  rw [(holdsGap_iff _ _).1 h]; rfl

theorem held_of_holdsTentative {g : Nat} (h : d.holdsTentative g = true) : (d.held g).isSome = true := by
  unfold Directory.holdsTentative at h
  split at h
  · rename_i e; rw [e]; rfl
  · cases h

theorem held_of_fillingInfo {g : Nat} {i : RecordInfo} (h : d.fillingInfo g = some i) : (d.held g).isSome = true := by
  unfold Directory.fillingInfo at h
  split at h
  · rename_i e; rw [e]; rfl
  · cases h

theorem Filled.foldl {α : Type} {f : Directory → α → Directory} (k : ∀ d a, d.Filled → (f d a).Filled) (l : List α)
    (h : d.Filled) : (l.foldl f d).Filled := by
  induction l generalizing d with
  | nil => exact h
  | cons a rest ih => exact ih (k d a h)

theorem Filled.markLost {l : List Nat} (h : d.Filled) : (d.markLost l).Filled := by
  unfold Directory.markLost
  refine h.foldl (fun d g c => ?_) l
  split
  · rename_i e
    exact c.put (by simp [Slot.gsn, (holdsGap_iff _ _).1 e])
  · exact c

theorem Filled.rollBack {e : PendEntry} (h : d.Filled) : (d.rollBack e).Filled := by
  unfold Directory.rollBack
  split
  · rename_i c; exact h.put (held_of_holdsTentative c.2)
  · exact h

theorem Filled.found (h : d.Filled) : d.found.Filled := (h.markLost (l := d.gaps)).setFrontier

/-- An empty window leaves every slot VACANT. -/
theorem Filled.vacant (h : d.Filled) (e : d.window = none) (n : Nat) : d.slotAt n = none := by
  cases c : d.slotAt n with
  | none => rfl
  | some x => obtain ⟨w, hw, _⟩ := (h.2 n x c).2; rw [e] at hw; cases hw

/-- The new window after a run of GAP slots up to `stop`, below it or with a record's descriptor at `stop`. -/
theorem Filled.raise {w : Window} {newHigh stop : Nat} (h : d.Filled) (e : d.window = some w) (s : w.low ≤ w.high)
    (n : w.high ≤ w.low + 4095) (a : w.high < newHigh) (b : stop ≤ newHigh + 1) (c : newHigh ≤ stop) :
    let r := (d.raise w newHigh (w.high + 1) stop).dir
    (∀ g, max w.low (newHigh - 4095) ≤ g → g < stop → (r.held g).isSome = true) ∧
    (∀ n x, r.slotAt n = some x → slotOf x.gsn = n ∧ max w.low (newHigh - 4095) ≤ x.gsn ∧ x.gsn < stop) := by
  have slot : ∀ m, (d.raise w newHigh (w.high + 1) stop).dir.slotAt m = ((List.range' (max (w.high + 1) (max w.low (newHigh - 4095)))
      (stop - max (w.high + 1) (max w.low (newHigh - 4095)))).foldl (fun acc g => acc.put (.gap g))
      ((List.range' w.low (min (max w.low (newHigh - 4095)) (w.high + 1) - w.low)).foldl Directory.vacate d)).slotAt m := fun _ => rfl
  intro r
  refine ⟨fun g l u => ?_, fun m x hx => ?_⟩
  · by_cases k : g ≤ w.high
    · obtain ⟨x, hx⟩ := Option.isSome_iff_exists.1 (h.1 w e g (by omega) k)
      obtain ⟨xs, xg⟩ := (held_eq _ _ _).1 hx
      refine Option.isSome_iff_exists.2 ⟨x, (held_eq _ _ _).2 ⟨?_, xg⟩⟩
      rw [slot]
      rcases slotAt_foldl_gap _ _ (slotOf g) with ⟨q, _⟩ | ⟨g', m', e', _⟩
      · rw [q, slotAt_foldl_vacate, if_neg]
        · exact xs
        · rintro ⟨g', m', e'⟩
          rw [List.mem_range'_1] at m'
          have := slotOf_inj e' (by omega) (by omega)
          omega
      · rw [List.mem_range'_1] at m'
        have := slotOf_inj e' (by omega) (by omega)
        omega
    · refine Option.isSome_iff_exists.2 ⟨.gap g, (held_eq _ _ _).2 ⟨?_, rfl⟩⟩
      rw [slot]
      rcases slotAt_foldl_gap (List.range' (max (w.high + 1) (max w.low (newHigh - 4095)))
        (stop - max (w.high + 1) (max w.low (newHigh - 4095)))) _ (slotOf g) with ⟨_, q⟩ | ⟨g', m', e', q⟩
      · exact absurd rfl (q g (by rw [List.mem_range'_1]; omega))
      · rw [List.mem_range'_1] at m'
        have z : g' = g := slotOf_inj e' (by omega) (by omega)
        rw [q, z]
  · rw [slot] at hx
    rcases slotAt_foldl_gap _ _ m with ⟨q, z⟩ | ⟨g', m', e', q⟩
    · rw [q, slotAt_foldl_vacate] at hx
      split at hx
      · cases hx
      · rename_i k
        obtain ⟨p, v, hv, lo, hi⟩ := h.2 m x hx
        rw [e] at hv; cases hv
        refine ⟨p, ?_, by omega⟩
        by_contra o
        exact k ⟨x.gsn, by rw [List.mem_range'_1]; omega, p⟩
    · rw [q] at hx; cases hx
      rw [List.mem_range'_1] at m'
      exact ⟨e', by simp only [Slot.gsn]; omega, by simp only [Slot.gsn]; omega⟩

theorem Filled.live {x : Slot} (h : d.Filled) (s : d.Shaped) : (d.live x).dir.Filled := by
  unfold Directory.live
  split
  · rename_i e
    refine ⟨fun w hw g a b => ?_, fun n y hy => ?_⟩
    · cases hw
      simp only at a b
      have : g = x.gsn := by omega
      subst this
      exact Option.isSome_iff_exists.2 ⟨x, (held_eq _ _ _).2 ⟨by show (d.put x).slotAt _ = _; simp, rfl⟩⟩
    · have hy : (d.put x).slotAt n = some y := hy
      rw [slotAt_put, h.vacant e] at hy
      split at hy
      · rename_i c; cases hy; exact ⟨c, _, rfl, le_rfl, le_rfl⟩
      · cases hy
  · rename_i w e
    obtain ⟨s1, s2, s3⟩ := s w e
    dsimp only
    split
    · exact h
    · have r := h.raise (newHigh := x.gsn) (stop := x.gsn) e s1 s2 (by omega) (by omega) le_rfl
      rw [← s3] at r
      refine ⟨fun v hv g a b => ?_, fun n y hy => ?_⟩
      · cases hv
        by_cases c : g = x.gsn
        · subst c
          exact Option.isSome_iff_exists.2 ⟨x, (held_eq _ _ _).2 ⟨by show ((d.raise w x.gsn d.frontier x.gsn).dir.put x).slotAt _ = _; simp, rfl⟩⟩
        · obtain ⟨y, hy⟩ := Option.isSome_iff_exists.1 (r.1 g a (by simp only at b; omega))
          obtain ⟨ys, yg⟩ := (held_eq _ _ _).1 hy
          refine Option.isSome_iff_exists.2 ⟨y, (held_eq _ _ _).2 ⟨?_, yg⟩⟩
          show ((d.raise w x.gsn d.frontier x.gsn).dir.put x).slotAt _ = _
          rw [slotAt_put, if_neg, ys]
          intro o
          exact c (slotOf_inj o (by simp only at a; omega) (by simp only at b; omega)).symm
      · have hy : ((d.raise w x.gsn d.frontier x.gsn).dir.put x).slotAt n = some y := hy
        rw [slotAt_put] at hy
        split at hy
        · rename_i c; cases hy; exact ⟨c, _, rfl, by simp only; omega, le_rfl⟩
        · obtain ⟨p, lo, hi⟩ := r.2 n y hy
          exact ⟨p, _, rfl, lo, by simp only; omega⟩

/-- A raise of the high to one below the new frontier, every slot up to it opened (R10, R12). -/
theorem Filled.raiseTo {w : Window} {f : Nat} (h : d.Filled) (e : d.window = some w) (s : w.low ≤ w.high)
    (n : w.high ≤ w.low + 4095) (a : w.high + 1 < f) :
    ({ (d.raise w (f - 1) (w.high + 1) f).dir with frontier := f } : Directory).Filled := by
  have r := h.raise (newHigh := f - 1) (stop := f) e s n (by omega) (by omega) (by omega)
  refine ⟨fun v hv g lo hi => ?_, fun n y hy => ?_⟩
  · cases hv
    exact r.1 g lo (by simp only at hi; omega)
  · obtain ⟨p, lo, hi⟩ := r.2 n y hy
    exact ⟨p, _, rfl, lo, by simp only; omega⟩

theorem Filled.presence {p : Nat} (h : d.Filled) (s : d.Shaped) : (d.presence p).dir.Filled := by
  unfold Directory.presence
  split
  · exact h
  · split
    · exact h
    · rename_i w e
      obtain ⟨s1, s2, s3⟩ := s w e
      rw [s3]
      exact h.raiseTo e s1 s2 (by omega)

theorem Filled.learnFresh {n f : Nat} (h : d.Filled) (e : d.window = none) (k : n ≤ 4095) : (d.learnFresh n f).dir.Filled := by
  unfold Directory.learnFresh
  split
  · exact h
  · rename_i c
    dsimp only
    refine ⟨fun w hw g a b => ?_, fun m x hx => ?_⟩
    · cases hw
      simp only at a b
      refine Option.isSome_iff_exists.2 ⟨.gap g, (held_eq _ _ _).2 ⟨?_, rfl⟩⟩
      rcases slotAt_foldl_gap (List.range' (max 1 (f - n)) (f - max 1 (f - n))) d (slotOf g) with ⟨_, q⟩ | ⟨g', m', e', q⟩
      · exact absurd rfl (q g (by rw [List.mem_range'_1]; omega))
      · rw [List.mem_range'_1] at m'
        refine q.trans ?_
        rw [slotOf_inj e' (by omega) (by omega)]
    · have hx : ((List.range' (max 1 (f - n)) (f - max 1 (f - n))).foldl (fun acc g => acc.put (.gap g)) d).slotAt m = some x := hx
      rcases slotAt_foldl_gap (List.range' (max 1 (f - n)) (f - max 1 (f - n))) d m with ⟨q, _⟩ | ⟨g', m', e', q⟩
      · rw [q, h.vacant e] at hx; cases hx
      · rw [q] at hx; cases hx
        rw [List.mem_range'_1] at m'
        exact ⟨e', _, rfl, by simp only [Slot.gsn]; omega, by simp only [Slot.gsn]; omega⟩

theorem Filled.learn {n f : Nat} (h : d.Filled) (s : d.Shaped) (k : n ≤ 4095) : (d.learn n f).1.dir.Filled := by
  unfold Directory.learn
  split
  · rename_i e; exact h.learnFresh e k
  · rename_i w e
    obtain ⟨s1, s2, s3⟩ := s w e
    split
    · exact Filled.reset.learnFresh rfl k
    · split
      · exact h
      · exact h.raiseTo e s1 s2 (by omega)

end Directory

end Sys2Proof.Machine
end

