-- ==== Sys2Proof/Laws/State.lean ====
section
/-! SUPPORT. One lemma for each field and each update of State. -/

namespace Sys2Proof.Machine

section
variable (s : State) (v : List Instr)
@[simp] theorem setPending_pending : (s.setPending v).pending = v := rfl
@[simp] theorem setPending_now : (s.setPending v).now = s.now := rfl
@[simp] theorem setPending_freeCount : (s.setPending v).freeCount = s.freeCount := rfl
@[simp] theorem setPending_resetHeld : (s.setPending v).resetHeld = s.resetHeld := rfl
@[simp] theorem setPending_straps : (s.setPending v).straps = s.straps := rfl
@[simp] theorem setPending_params : (s.setPending v).params = s.params := rfl
@[simp] theorem setPending_dir : (s.setPending v).dir = s.dir := rfl
@[simp] theorem setPending_array : (s.setPending v).array = s.array := rfl
@[simp] theorem setPending_bus : (s.setPending v).bus = s.bus := rfl
@[simp] theorem setPending_filter : (s.setPending v).filter = s.filter := rfl
@[simp] theorem setPending_conf : (s.setPending v).conf = s.conf := rfl
@[simp] theorem setPending_out : (s.setPending v).out = s.out := rfl
@[simp] theorem setPending_sel : (s.setPending v).sel = s.sel := rfl
@[simp] theorem setPending_mem : (s.setPending v).mem = s.mem := rfl
@[simp] theorem setPending_cat : (s.setPending v).cat = s.cat := rfl
@[simp] theorem setPending_arb : (s.setPending v).arb = s.arb := rfl
@[simp] theorem setPending_swp : (s.setPending v).swp = s.swp := rfl
@[simp] theorem setPending_temp : (s.setPending v).temp = s.temp := rfl
@[simp] theorem setPending_port : (s.setPending v).port = s.port := rfl
end

section
variable (s : State) (v : Nat)
@[simp] theorem setNow_pending : (s.setNow v).pending = s.pending := rfl
@[simp] theorem setNow_now : (s.setNow v).now = v := rfl
@[simp] theorem setNow_freeCount : (s.setNow v).freeCount = s.freeCount := rfl
@[simp] theorem setNow_resetHeld : (s.setNow v).resetHeld = s.resetHeld := rfl
@[simp] theorem setNow_straps : (s.setNow v).straps = s.straps := rfl
@[simp] theorem setNow_params : (s.setNow v).params = s.params := rfl
@[simp] theorem setNow_dir : (s.setNow v).dir = s.dir := rfl
@[simp] theorem setNow_array : (s.setNow v).array = s.array := rfl
@[simp] theorem setNow_bus : (s.setNow v).bus = s.bus := rfl
@[simp] theorem setNow_filter : (s.setNow v).filter = s.filter := rfl
@[simp] theorem setNow_conf : (s.setNow v).conf = s.conf := rfl
@[simp] theorem setNow_out : (s.setNow v).out = s.out := rfl
@[simp] theorem setNow_sel : (s.setNow v).sel = s.sel := rfl
@[simp] theorem setNow_mem : (s.setNow v).mem = s.mem := rfl
@[simp] theorem setNow_cat : (s.setNow v).cat = s.cat := rfl
@[simp] theorem setNow_arb : (s.setNow v).arb = s.arb := rfl
@[simp] theorem setNow_swp : (s.setNow v).swp = s.swp := rfl
@[simp] theorem setNow_temp : (s.setNow v).temp = s.temp := rfl
@[simp] theorem setNow_port : (s.setNow v).port = s.port := rfl
end

section
variable (s : State) (v : Nat)
@[simp] theorem setFreeCount_pending : (s.setFreeCount v).pending = s.pending := rfl
@[simp] theorem setFreeCount_now : (s.setFreeCount v).now = s.now := rfl
@[simp] theorem setFreeCount_freeCount : (s.setFreeCount v).freeCount = v := rfl
@[simp] theorem setFreeCount_resetHeld : (s.setFreeCount v).resetHeld = s.resetHeld := rfl
@[simp] theorem setFreeCount_straps : (s.setFreeCount v).straps = s.straps := rfl
@[simp] theorem setFreeCount_params : (s.setFreeCount v).params = s.params := rfl
@[simp] theorem setFreeCount_dir : (s.setFreeCount v).dir = s.dir := rfl
@[simp] theorem setFreeCount_array : (s.setFreeCount v).array = s.array := rfl
@[simp] theorem setFreeCount_bus : (s.setFreeCount v).bus = s.bus := rfl
@[simp] theorem setFreeCount_filter : (s.setFreeCount v).filter = s.filter := rfl
@[simp] theorem setFreeCount_conf : (s.setFreeCount v).conf = s.conf := rfl
@[simp] theorem setFreeCount_out : (s.setFreeCount v).out = s.out := rfl
@[simp] theorem setFreeCount_sel : (s.setFreeCount v).sel = s.sel := rfl
@[simp] theorem setFreeCount_mem : (s.setFreeCount v).mem = s.mem := rfl
@[simp] theorem setFreeCount_cat : (s.setFreeCount v).cat = s.cat := rfl
@[simp] theorem setFreeCount_arb : (s.setFreeCount v).arb = s.arb := rfl
@[simp] theorem setFreeCount_swp : (s.setFreeCount v).swp = s.swp := rfl
@[simp] theorem setFreeCount_temp : (s.setFreeCount v).temp = s.temp := rfl
@[simp] theorem setFreeCount_port : (s.setFreeCount v).port = s.port := rfl
end

section
variable (s : State) (v : Bool)
@[simp] theorem setResetHeld_pending : (s.setResetHeld v).pending = s.pending := rfl
@[simp] theorem setResetHeld_now : (s.setResetHeld v).now = s.now := rfl
@[simp] theorem setResetHeld_freeCount : (s.setResetHeld v).freeCount = s.freeCount := rfl
@[simp] theorem setResetHeld_resetHeld : (s.setResetHeld v).resetHeld = v := rfl
@[simp] theorem setResetHeld_straps : (s.setResetHeld v).straps = s.straps := rfl
@[simp] theorem setResetHeld_params : (s.setResetHeld v).params = s.params := rfl
@[simp] theorem setResetHeld_dir : (s.setResetHeld v).dir = s.dir := rfl
@[simp] theorem setResetHeld_array : (s.setResetHeld v).array = s.array := rfl
@[simp] theorem setResetHeld_bus : (s.setResetHeld v).bus = s.bus := rfl
@[simp] theorem setResetHeld_filter : (s.setResetHeld v).filter = s.filter := rfl
@[simp] theorem setResetHeld_conf : (s.setResetHeld v).conf = s.conf := rfl
@[simp] theorem setResetHeld_out : (s.setResetHeld v).out = s.out := rfl
@[simp] theorem setResetHeld_sel : (s.setResetHeld v).sel = s.sel := rfl
@[simp] theorem setResetHeld_mem : (s.setResetHeld v).mem = s.mem := rfl
@[simp] theorem setResetHeld_cat : (s.setResetHeld v).cat = s.cat := rfl
@[simp] theorem setResetHeld_arb : (s.setResetHeld v).arb = s.arb := rfl
@[simp] theorem setResetHeld_swp : (s.setResetHeld v).swp = s.swp := rfl
@[simp] theorem setResetHeld_temp : (s.setResetHeld v).temp = s.temp := rfl
@[simp] theorem setResetHeld_port : (s.setResetHeld v).port = s.port := rfl
end

section
variable (s : State) (v : Straps)
@[simp] theorem setStraps_pending : (s.setStraps v).pending = s.pending := rfl
@[simp] theorem setStraps_now : (s.setStraps v).now = s.now := rfl
@[simp] theorem setStraps_freeCount : (s.setStraps v).freeCount = s.freeCount := rfl
@[simp] theorem setStraps_resetHeld : (s.setStraps v).resetHeld = s.resetHeld := rfl
@[simp] theorem setStraps_straps : (s.setStraps v).straps = v := rfl
@[simp] theorem setStraps_params : (s.setStraps v).params = s.params := rfl
@[simp] theorem setStraps_dir : (s.setStraps v).dir = s.dir := rfl
@[simp] theorem setStraps_array : (s.setStraps v).array = s.array := rfl
@[simp] theorem setStraps_bus : (s.setStraps v).bus = s.bus := rfl
@[simp] theorem setStraps_filter : (s.setStraps v).filter = s.filter := rfl
@[simp] theorem setStraps_conf : (s.setStraps v).conf = s.conf := rfl
@[simp] theorem setStraps_out : (s.setStraps v).out = s.out := rfl
@[simp] theorem setStraps_sel : (s.setStraps v).sel = s.sel := rfl
@[simp] theorem setStraps_mem : (s.setStraps v).mem = s.mem := rfl
@[simp] theorem setStraps_cat : (s.setStraps v).cat = s.cat := rfl
@[simp] theorem setStraps_arb : (s.setStraps v).arb = s.arb := rfl
@[simp] theorem setStraps_swp : (s.setStraps v).swp = s.swp := rfl
@[simp] theorem setStraps_temp : (s.setStraps v).temp = s.temp := rfl
@[simp] theorem setStraps_port : (s.setStraps v).port = s.port := rfl
end

section
variable (s : State) (v : Option StartParams)
@[simp] theorem setParams_pending : (s.setParams v).pending = s.pending := rfl
@[simp] theorem setParams_now : (s.setParams v).now = s.now := rfl
@[simp] theorem setParams_freeCount : (s.setParams v).freeCount = s.freeCount := rfl
@[simp] theorem setParams_resetHeld : (s.setParams v).resetHeld = s.resetHeld := rfl
@[simp] theorem setParams_straps : (s.setParams v).straps = s.straps := rfl
@[simp] theorem setParams_params : (s.setParams v).params = v := rfl
@[simp] theorem setParams_dir : (s.setParams v).dir = s.dir := rfl
@[simp] theorem setParams_array : (s.setParams v).array = s.array := rfl
@[simp] theorem setParams_bus : (s.setParams v).bus = s.bus := rfl
@[simp] theorem setParams_filter : (s.setParams v).filter = s.filter := rfl
@[simp] theorem setParams_conf : (s.setParams v).conf = s.conf := rfl
@[simp] theorem setParams_out : (s.setParams v).out = s.out := rfl
@[simp] theorem setParams_sel : (s.setParams v).sel = s.sel := rfl
@[simp] theorem setParams_mem : (s.setParams v).mem = s.mem := rfl
@[simp] theorem setParams_cat : (s.setParams v).cat = s.cat := rfl
@[simp] theorem setParams_arb : (s.setParams v).arb = s.arb := rfl
@[simp] theorem setParams_swp : (s.setParams v).swp = s.swp := rfl
@[simp] theorem setParams_temp : (s.setParams v).temp = s.temp := rfl
@[simp] theorem setParams_port : (s.setParams v).port = s.port := rfl
end

section
variable (s : State) (v : Directory)
@[simp] theorem setDir_pending : (s.setDir v).pending = s.pending := rfl
@[simp] theorem setDir_now : (s.setDir v).now = s.now := rfl
@[simp] theorem setDir_freeCount : (s.setDir v).freeCount = s.freeCount := rfl
@[simp] theorem setDir_resetHeld : (s.setDir v).resetHeld = s.resetHeld := rfl
@[simp] theorem setDir_straps : (s.setDir v).straps = s.straps := rfl
@[simp] theorem setDir_params : (s.setDir v).params = s.params := rfl
@[simp] theorem setDir_dir : (s.setDir v).dir = v := rfl
@[simp] theorem setDir_array : (s.setDir v).array = s.array := rfl
@[simp] theorem setDir_bus : (s.setDir v).bus = s.bus := rfl
@[simp] theorem setDir_filter : (s.setDir v).filter = s.filter := rfl
@[simp] theorem setDir_conf : (s.setDir v).conf = s.conf := rfl
@[simp] theorem setDir_out : (s.setDir v).out = s.out := rfl
@[simp] theorem setDir_sel : (s.setDir v).sel = s.sel := rfl
@[simp] theorem setDir_mem : (s.setDir v).mem = s.mem := rfl
@[simp] theorem setDir_cat : (s.setDir v).cat = s.cat := rfl
@[simp] theorem setDir_arb : (s.setDir v).arb = s.arb := rfl
@[simp] theorem setDir_swp : (s.setDir v).swp = s.swp := rfl
@[simp] theorem setDir_temp : (s.setDir v).temp = s.temp := rfl
@[simp] theorem setDir_port : (s.setDir v).port = s.port := rfl
end

section
variable (s : State) (v : List Host.Cell)
@[simp] theorem setArray_pending : (s.setArray v).pending = s.pending := rfl
@[simp] theorem setArray_now : (s.setArray v).now = s.now := rfl
@[simp] theorem setArray_freeCount : (s.setArray v).freeCount = s.freeCount := rfl
@[simp] theorem setArray_resetHeld : (s.setArray v).resetHeld = s.resetHeld := rfl
@[simp] theorem setArray_straps : (s.setArray v).straps = s.straps := rfl
@[simp] theorem setArray_params : (s.setArray v).params = s.params := rfl
@[simp] theorem setArray_dir : (s.setArray v).dir = s.dir := rfl
@[simp] theorem setArray_array : (s.setArray v).array = v := rfl
@[simp] theorem setArray_bus : (s.setArray v).bus = s.bus := rfl
@[simp] theorem setArray_filter : (s.setArray v).filter = s.filter := rfl
@[simp] theorem setArray_conf : (s.setArray v).conf = s.conf := rfl
@[simp] theorem setArray_out : (s.setArray v).out = s.out := rfl
@[simp] theorem setArray_sel : (s.setArray v).sel = s.sel := rfl
@[simp] theorem setArray_mem : (s.setArray v).mem = s.mem := rfl
@[simp] theorem setArray_cat : (s.setArray v).cat = s.cat := rfl
@[simp] theorem setArray_arb : (s.setArray v).arb = s.arb := rfl
@[simp] theorem setArray_swp : (s.setArray v).swp = s.swp := rfl
@[simp] theorem setArray_temp : (s.setArray v).temp = s.temp := rfl
@[simp] theorem setArray_port : (s.setArray v).port = s.port := rfl
end

section
variable (s : State) (v : Bus)
@[simp] theorem setBus_pending : (s.setBus v).pending = s.pending := rfl
@[simp] theorem setBus_now : (s.setBus v).now = s.now := rfl
@[simp] theorem setBus_freeCount : (s.setBus v).freeCount = s.freeCount := rfl
@[simp] theorem setBus_resetHeld : (s.setBus v).resetHeld = s.resetHeld := rfl
@[simp] theorem setBus_straps : (s.setBus v).straps = s.straps := rfl
@[simp] theorem setBus_params : (s.setBus v).params = s.params := rfl
@[simp] theorem setBus_dir : (s.setBus v).dir = s.dir := rfl
@[simp] theorem setBus_array : (s.setBus v).array = s.array := rfl
@[simp] theorem setBus_bus : (s.setBus v).bus = v := rfl
@[simp] theorem setBus_filter : (s.setBus v).filter = s.filter := rfl
@[simp] theorem setBus_conf : (s.setBus v).conf = s.conf := rfl
@[simp] theorem setBus_out : (s.setBus v).out = s.out := rfl
@[simp] theorem setBus_sel : (s.setBus v).sel = s.sel := rfl
@[simp] theorem setBus_mem : (s.setBus v).mem = s.mem := rfl
@[simp] theorem setBus_cat : (s.setBus v).cat = s.cat := rfl
@[simp] theorem setBus_arb : (s.setBus v).arb = s.arb := rfl
@[simp] theorem setBus_swp : (s.setBus v).swp = s.swp := rfl
@[simp] theorem setBus_temp : (s.setBus v).temp = s.temp := rfl
@[simp] theorem setBus_port : (s.setBus v).port = s.port := rfl
end

section
variable (s : State) (v : Filter)
@[simp] theorem setFilter_pending : (s.setFilter v).pending = s.pending := rfl
@[simp] theorem setFilter_now : (s.setFilter v).now = s.now := rfl
@[simp] theorem setFilter_freeCount : (s.setFilter v).freeCount = s.freeCount := rfl
@[simp] theorem setFilter_resetHeld : (s.setFilter v).resetHeld = s.resetHeld := rfl
@[simp] theorem setFilter_straps : (s.setFilter v).straps = s.straps := rfl
@[simp] theorem setFilter_params : (s.setFilter v).params = s.params := rfl
@[simp] theorem setFilter_dir : (s.setFilter v).dir = s.dir := rfl
@[simp] theorem setFilter_array : (s.setFilter v).array = s.array := rfl
@[simp] theorem setFilter_bus : (s.setFilter v).bus = s.bus := rfl
@[simp] theorem setFilter_filter : (s.setFilter v).filter = v := rfl
@[simp] theorem setFilter_conf : (s.setFilter v).conf = s.conf := rfl
@[simp] theorem setFilter_out : (s.setFilter v).out = s.out := rfl
@[simp] theorem setFilter_sel : (s.setFilter v).sel = s.sel := rfl
@[simp] theorem setFilter_mem : (s.setFilter v).mem = s.mem := rfl
@[simp] theorem setFilter_cat : (s.setFilter v).cat = s.cat := rfl
@[simp] theorem setFilter_arb : (s.setFilter v).arb = s.arb := rfl
@[simp] theorem setFilter_swp : (s.setFilter v).swp = s.swp := rfl
@[simp] theorem setFilter_temp : (s.setFilter v).temp = s.temp := rfl
@[simp] theorem setFilter_port : (s.setFilter v).port = s.port := rfl
end

section
variable (s : State) (v : Confirmation)
@[simp] theorem setConf_pending : (s.setConf v).pending = s.pending := rfl
@[simp] theorem setConf_now : (s.setConf v).now = s.now := rfl
@[simp] theorem setConf_freeCount : (s.setConf v).freeCount = s.freeCount := rfl
@[simp] theorem setConf_resetHeld : (s.setConf v).resetHeld = s.resetHeld := rfl
@[simp] theorem setConf_straps : (s.setConf v).straps = s.straps := rfl
@[simp] theorem setConf_params : (s.setConf v).params = s.params := rfl
@[simp] theorem setConf_dir : (s.setConf v).dir = s.dir := rfl
@[simp] theorem setConf_array : (s.setConf v).array = s.array := rfl
@[simp] theorem setConf_bus : (s.setConf v).bus = s.bus := rfl
@[simp] theorem setConf_filter : (s.setConf v).filter = s.filter := rfl
@[simp] theorem setConf_conf : (s.setConf v).conf = v := rfl
@[simp] theorem setConf_out : (s.setConf v).out = s.out := rfl
@[simp] theorem setConf_sel : (s.setConf v).sel = s.sel := rfl
@[simp] theorem setConf_mem : (s.setConf v).mem = s.mem := rfl
@[simp] theorem setConf_cat : (s.setConf v).cat = s.cat := rfl
@[simp] theorem setConf_arb : (s.setConf v).arb = s.arb := rfl
@[simp] theorem setConf_swp : (s.setConf v).swp = s.swp := rfl
@[simp] theorem setConf_temp : (s.setConf v).temp = s.temp := rfl
@[simp] theorem setConf_port : (s.setConf v).port = s.port := rfl
end

section
variable (s : State) (v : Outbound)
@[simp] theorem setOut_pending : (s.setOut v).pending = s.pending := rfl
@[simp] theorem setOut_now : (s.setOut v).now = s.now := rfl
@[simp] theorem setOut_freeCount : (s.setOut v).freeCount = s.freeCount := rfl
@[simp] theorem setOut_resetHeld : (s.setOut v).resetHeld = s.resetHeld := rfl
@[simp] theorem setOut_straps : (s.setOut v).straps = s.straps := rfl
@[simp] theorem setOut_params : (s.setOut v).params = s.params := rfl
@[simp] theorem setOut_dir : (s.setOut v).dir = s.dir := rfl
@[simp] theorem setOut_array : (s.setOut v).array = s.array := rfl
@[simp] theorem setOut_bus : (s.setOut v).bus = s.bus := rfl
@[simp] theorem setOut_filter : (s.setOut v).filter = s.filter := rfl
@[simp] theorem setOut_conf : (s.setOut v).conf = s.conf := rfl
@[simp] theorem setOut_out : (s.setOut v).out = v := rfl
@[simp] theorem setOut_sel : (s.setOut v).sel = s.sel := rfl
@[simp] theorem setOut_mem : (s.setOut v).mem = s.mem := rfl
@[simp] theorem setOut_cat : (s.setOut v).cat = s.cat := rfl
@[simp] theorem setOut_arb : (s.setOut v).arb = s.arb := rfl
@[simp] theorem setOut_swp : (s.setOut v).swp = s.swp := rfl
@[simp] theorem setOut_temp : (s.setOut v).temp = s.temp := rfl
@[simp] theorem setOut_port : (s.setOut v).port = s.port := rfl
end

section
variable (s : State) (v : Selector)
@[simp] theorem setSel_pending : (s.setSel v).pending = s.pending := rfl
@[simp] theorem setSel_now : (s.setSel v).now = s.now := rfl
@[simp] theorem setSel_freeCount : (s.setSel v).freeCount = s.freeCount := rfl
@[simp] theorem setSel_resetHeld : (s.setSel v).resetHeld = s.resetHeld := rfl
@[simp] theorem setSel_straps : (s.setSel v).straps = s.straps := rfl
@[simp] theorem setSel_params : (s.setSel v).params = s.params := rfl
@[simp] theorem setSel_dir : (s.setSel v).dir = s.dir := rfl
@[simp] theorem setSel_array : (s.setSel v).array = s.array := rfl
@[simp] theorem setSel_bus : (s.setSel v).bus = s.bus := rfl
@[simp] theorem setSel_filter : (s.setSel v).filter = s.filter := rfl
@[simp] theorem setSel_conf : (s.setSel v).conf = s.conf := rfl
@[simp] theorem setSel_out : (s.setSel v).out = s.out := rfl
@[simp] theorem setSel_sel : (s.setSel v).sel = v := rfl
@[simp] theorem setSel_mem : (s.setSel v).mem = s.mem := rfl
@[simp] theorem setSel_cat : (s.setSel v).cat = s.cat := rfl
@[simp] theorem setSel_arb : (s.setSel v).arb = s.arb := rfl
@[simp] theorem setSel_swp : (s.setSel v).swp = s.swp := rfl
@[simp] theorem setSel_temp : (s.setSel v).temp = s.temp := rfl
@[simp] theorem setSel_port : (s.setSel v).port = s.port := rfl
end

section
variable (s : State) (v : Membership)
@[simp] theorem setMem_pending : (s.setMem v).pending = s.pending := rfl
@[simp] theorem setMem_now : (s.setMem v).now = s.now := rfl
@[simp] theorem setMem_freeCount : (s.setMem v).freeCount = s.freeCount := rfl
@[simp] theorem setMem_resetHeld : (s.setMem v).resetHeld = s.resetHeld := rfl
@[simp] theorem setMem_straps : (s.setMem v).straps = s.straps := rfl
@[simp] theorem setMem_params : (s.setMem v).params = s.params := rfl
@[simp] theorem setMem_dir : (s.setMem v).dir = s.dir := rfl
@[simp] theorem setMem_array : (s.setMem v).array = s.array := rfl
@[simp] theorem setMem_bus : (s.setMem v).bus = s.bus := rfl
@[simp] theorem setMem_filter : (s.setMem v).filter = s.filter := rfl
@[simp] theorem setMem_conf : (s.setMem v).conf = s.conf := rfl
@[simp] theorem setMem_out : (s.setMem v).out = s.out := rfl
@[simp] theorem setMem_sel : (s.setMem v).sel = s.sel := rfl
@[simp] theorem setMem_mem : (s.setMem v).mem = v := rfl
@[simp] theorem setMem_cat : (s.setMem v).cat = s.cat := rfl
@[simp] theorem setMem_arb : (s.setMem v).arb = s.arb := rfl
@[simp] theorem setMem_swp : (s.setMem v).swp = s.swp := rfl
@[simp] theorem setMem_temp : (s.setMem v).temp = s.temp := rfl
@[simp] theorem setMem_port : (s.setMem v).port = s.port := rfl
end

section
variable (s : State) (v : CatchUp)
@[simp] theorem setCat_pending : (s.setCat v).pending = s.pending := rfl
@[simp] theorem setCat_now : (s.setCat v).now = s.now := rfl
@[simp] theorem setCat_freeCount : (s.setCat v).freeCount = s.freeCount := rfl
@[simp] theorem setCat_resetHeld : (s.setCat v).resetHeld = s.resetHeld := rfl
@[simp] theorem setCat_straps : (s.setCat v).straps = s.straps := rfl
@[simp] theorem setCat_params : (s.setCat v).params = s.params := rfl
@[simp] theorem setCat_dir : (s.setCat v).dir = s.dir := rfl
@[simp] theorem setCat_array : (s.setCat v).array = s.array := rfl
@[simp] theorem setCat_bus : (s.setCat v).bus = s.bus := rfl
@[simp] theorem setCat_filter : (s.setCat v).filter = s.filter := rfl
@[simp] theorem setCat_conf : (s.setCat v).conf = s.conf := rfl
@[simp] theorem setCat_out : (s.setCat v).out = s.out := rfl
@[simp] theorem setCat_sel : (s.setCat v).sel = s.sel := rfl
@[simp] theorem setCat_mem : (s.setCat v).mem = s.mem := rfl
@[simp] theorem setCat_cat : (s.setCat v).cat = v := rfl
@[simp] theorem setCat_arb : (s.setCat v).arb = s.arb := rfl
@[simp] theorem setCat_swp : (s.setCat v).swp = s.swp := rfl
@[simp] theorem setCat_temp : (s.setCat v).temp = s.temp := rfl
@[simp] theorem setCat_port : (s.setCat v).port = s.port := rfl
end

section
variable (s : State) (v : Arbiter)
@[simp] theorem setArb_pending : (s.setArb v).pending = s.pending := rfl
@[simp] theorem setArb_now : (s.setArb v).now = s.now := rfl
@[simp] theorem setArb_freeCount : (s.setArb v).freeCount = s.freeCount := rfl
@[simp] theorem setArb_resetHeld : (s.setArb v).resetHeld = s.resetHeld := rfl
@[simp] theorem setArb_straps : (s.setArb v).straps = s.straps := rfl
@[simp] theorem setArb_params : (s.setArb v).params = s.params := rfl
@[simp] theorem setArb_dir : (s.setArb v).dir = s.dir := rfl
@[simp] theorem setArb_array : (s.setArb v).array = s.array := rfl
@[simp] theorem setArb_bus : (s.setArb v).bus = s.bus := rfl
@[simp] theorem setArb_filter : (s.setArb v).filter = s.filter := rfl
@[simp] theorem setArb_conf : (s.setArb v).conf = s.conf := rfl
@[simp] theorem setArb_out : (s.setArb v).out = s.out := rfl
@[simp] theorem setArb_sel : (s.setArb v).sel = s.sel := rfl
@[simp] theorem setArb_mem : (s.setArb v).mem = s.mem := rfl
@[simp] theorem setArb_cat : (s.setArb v).cat = s.cat := rfl
@[simp] theorem setArb_arb : (s.setArb v).arb = v := rfl
@[simp] theorem setArb_swp : (s.setArb v).swp = s.swp := rfl
@[simp] theorem setArb_temp : (s.setArb v).temp = s.temp := rfl
@[simp] theorem setArb_port : (s.setArb v).port = s.port := rfl
end

section
variable (s : State) (v : Sweep)
@[simp] theorem setSwp_pending : (s.setSwp v).pending = s.pending := rfl
@[simp] theorem setSwp_now : (s.setSwp v).now = s.now := rfl
@[simp] theorem setSwp_freeCount : (s.setSwp v).freeCount = s.freeCount := rfl
@[simp] theorem setSwp_resetHeld : (s.setSwp v).resetHeld = s.resetHeld := rfl
@[simp] theorem setSwp_straps : (s.setSwp v).straps = s.straps := rfl
@[simp] theorem setSwp_params : (s.setSwp v).params = s.params := rfl
@[simp] theorem setSwp_dir : (s.setSwp v).dir = s.dir := rfl
@[simp] theorem setSwp_array : (s.setSwp v).array = s.array := rfl
@[simp] theorem setSwp_bus : (s.setSwp v).bus = s.bus := rfl
@[simp] theorem setSwp_filter : (s.setSwp v).filter = s.filter := rfl
@[simp] theorem setSwp_conf : (s.setSwp v).conf = s.conf := rfl
@[simp] theorem setSwp_out : (s.setSwp v).out = s.out := rfl
@[simp] theorem setSwp_sel : (s.setSwp v).sel = s.sel := rfl
@[simp] theorem setSwp_mem : (s.setSwp v).mem = s.mem := rfl
@[simp] theorem setSwp_cat : (s.setSwp v).cat = s.cat := rfl
@[simp] theorem setSwp_arb : (s.setSwp v).arb = s.arb := rfl
@[simp] theorem setSwp_swp : (s.setSwp v).swp = v := rfl
@[simp] theorem setSwp_temp : (s.setSwp v).temp = s.temp := rfl
@[simp] theorem setSwp_port : (s.setSwp v).port = s.port := rfl
end

section
variable (s : State) (v : Temperature)
@[simp] theorem setTemp_pending : (s.setTemp v).pending = s.pending := rfl
@[simp] theorem setTemp_now : (s.setTemp v).now = s.now := rfl
@[simp] theorem setTemp_freeCount : (s.setTemp v).freeCount = s.freeCount := rfl
@[simp] theorem setTemp_resetHeld : (s.setTemp v).resetHeld = s.resetHeld := rfl
@[simp] theorem setTemp_straps : (s.setTemp v).straps = s.straps := rfl
@[simp] theorem setTemp_params : (s.setTemp v).params = s.params := rfl
@[simp] theorem setTemp_dir : (s.setTemp v).dir = s.dir := rfl
@[simp] theorem setTemp_array : (s.setTemp v).array = s.array := rfl
@[simp] theorem setTemp_bus : (s.setTemp v).bus = s.bus := rfl
@[simp] theorem setTemp_filter : (s.setTemp v).filter = s.filter := rfl
@[simp] theorem setTemp_conf : (s.setTemp v).conf = s.conf := rfl
@[simp] theorem setTemp_out : (s.setTemp v).out = s.out := rfl
@[simp] theorem setTemp_sel : (s.setTemp v).sel = s.sel := rfl
@[simp] theorem setTemp_mem : (s.setTemp v).mem = s.mem := rfl
@[simp] theorem setTemp_cat : (s.setTemp v).cat = s.cat := rfl
@[simp] theorem setTemp_arb : (s.setTemp v).arb = s.arb := rfl
@[simp] theorem setTemp_swp : (s.setTemp v).swp = s.swp := rfl
@[simp] theorem setTemp_temp : (s.setTemp v).temp = v := rfl
@[simp] theorem setTemp_port : (s.setTemp v).port = s.port := rfl
end

section
variable (s : State) (v : LocalPort)
@[simp] theorem setPort_pending : (s.setPort v).pending = s.pending := rfl
@[simp] theorem setPort_now : (s.setPort v).now = s.now := rfl
@[simp] theorem setPort_freeCount : (s.setPort v).freeCount = s.freeCount := rfl
@[simp] theorem setPort_resetHeld : (s.setPort v).resetHeld = s.resetHeld := rfl
@[simp] theorem setPort_straps : (s.setPort v).straps = s.straps := rfl
@[simp] theorem setPort_params : (s.setPort v).params = s.params := rfl
@[simp] theorem setPort_dir : (s.setPort v).dir = s.dir := rfl
@[simp] theorem setPort_array : (s.setPort v).array = s.array := rfl
@[simp] theorem setPort_bus : (s.setPort v).bus = s.bus := rfl
@[simp] theorem setPort_filter : (s.setPort v).filter = s.filter := rfl
@[simp] theorem setPort_conf : (s.setPort v).conf = s.conf := rfl
@[simp] theorem setPort_out : (s.setPort v).out = s.out := rfl
@[simp] theorem setPort_sel : (s.setPort v).sel = s.sel := rfl
@[simp] theorem setPort_mem : (s.setPort v).mem = s.mem := rfl
@[simp] theorem setPort_cat : (s.setPort v).cat = s.cat := rfl
@[simp] theorem setPort_arb : (s.setPort v).arb = s.arb := rfl
@[simp] theorem setPort_swp : (s.setPort v).swp = s.swp := rfl
@[simp] theorem setPort_temp : (s.setPort v).temp = s.temp := rfl
@[simp] theorem setPort_port : (s.setPort v).port = v := rfl
end

/-- Two states with the same blocks are the same. -/
theorem State.eq_of_blocks {s t : State} (pending : s.pending = t.pending) (now : s.now = t.now) (freeCount : s.freeCount = t.freeCount) (resetHeld : s.resetHeld = t.resetHeld) (straps : s.straps = t.straps)
    (params : s.params = t.params) (dir : s.dir = t.dir) (array : s.array = t.array) (bus : s.bus = t.bus) (filter : s.filter = t.filter)
    (conf : s.conf = t.conf) (out : s.out = t.out) (sel : s.sel = t.sel) (mem : s.mem = t.mem) (cat : s.cat = t.cat)
    (arb : s.arb = t.arb) (swp : s.swp = t.swp) (temp : s.temp = t.temp) (port : s.port = t.port) : s = t := by
  cases s; cases t
  simp only at pending now freeCount resetHeld straps params dir array bus filter conf out sel mem cat arb swp temp port
  subst pending now freeCount resetHeld straps params dir array bus filter conf out sel mem cat arb swp temp port
  rfl

end Sys2Proof.Machine
end

