-- ==== Sys2Proof/Laws/Internal.lean ====
section
/-! SUPPORT. The working of the blocks: every shared operation leaves the fixed part and the port's answer alone, only adds
notices, and keeps the bounds. One lemma per operation, in the form `Internal s t → Internal s (t.op …)`. -/

namespace Sys2Proof.Machine

/-- From `s` the blocks have worked on to `t`. -/
structure Internal (s t : State) : Prop where
  fixed : t.fixed = s.fixed
  phase : t.port.phase = s.port.phase
  slot : t.port.slot = s.port.slot
  response : t.port.response = s.port.response
  sdo : t.port.sdo = s.port.sdo
  notices : s.port.notices <+: t.port.notices
  lost : s.port.Bounded → s.port.lost ≤ t.port.lost
  bounded : s.port.Bounded → t.port.Bounded
  counts : s.CountsBounded → t.CountsBounded
  shaped : s.WindowShaped → t.WindowShaped
  counted : s.dir.Counted → t.dir.Counted
  filled : s.WindowShaped → s.dir.Filled → t.dir.Filled

namespace Internal

@[simp] theorem refl (s : State) : Internal s s := ⟨rfl, rfl, rfl, rfl, rfl, List.prefix_rfl, fun _ => le_rfl, id, id, id, id, fun _ f => f⟩

theorem trans {s t u : State} (h : Internal s t) (k : Internal t u) : Internal s u :=
  ⟨k.fixed.trans h.fixed, k.phase.trans h.phase, k.slot.trans h.slot, k.response.trans h.response, k.sdo.trans h.sdo,
   h.notices.trans k.notices, fun b => (h.lost b).trans (k.lost (h.bounded b)), k.bounded ∘ h.bounded, k.counts ∘ h.counts, k.shaped ∘ h.shaped,
   k.counted ∘ h.counted, fun w f => k.filled (h.shaped w) (h.filled w f)⟩

variable {s t : State}

/-! ## Updates of one block -/

@[simp] theorem setBus {v : Bus} (h : Internal s t) : Internal s (t.setBus v) :=
  h.trans ⟨rfl, rfl, rfl, rfl, rfl, List.prefix_rfl, fun _ => le_rfl, id, id, id, id, fun _ f => f⟩

@[simp] theorem setFilter {v : Filter} (h : Internal s t) : Internal s (t.setFilter v) :=
  h.trans ⟨rfl, rfl, rfl, rfl, rfl, List.prefix_rfl, fun _ => le_rfl, id, id, id, id, fun _ f => f⟩

@[simp] theorem setSel {v : Selector} (h : Internal s t) : Internal s (t.setSel v) :=
  h.trans ⟨rfl, rfl, rfl, rfl, rfl, List.prefix_rfl, fun _ => le_rfl, id, id, id, id, fun _ f => f⟩

@[simp] theorem setMem {v : Membership} (h : Internal s t) : Internal s (t.setMem v) :=
  h.trans ⟨rfl, rfl, rfl, rfl, rfl, List.prefix_rfl, fun _ => le_rfl, id, id, id, id, fun _ f => f⟩

@[simp] theorem setCat {v : CatchUp} (h : Internal s t) : Internal s (t.setCat v) :=
  h.trans ⟨rfl, rfl, rfl, rfl, rfl, List.prefix_rfl, fun _ => le_rfl, id, id, id, id, fun _ f => f⟩

@[simp] theorem setArb {v : Arbiter} (h : Internal s t) : Internal s (t.setArb v) :=
  h.trans ⟨rfl, rfl, rfl, rfl, rfl, List.prefix_rfl, fun _ => le_rfl, id, id, id, id, fun _ f => f⟩

/-- The sweep engine's update, when its balance and position stay in range. -/
theorem setSwp {v : Sweep} (h : Internal s t)
    (k : t.CountsBounded → -8 ≤ v.balance ∧ v.balance ≤ 8 ∧ v.position ≤ 3) : Internal s (t.setSwp v) :=
  h.trans ⟨rfl, rfl, rfl, rfl, rfl, List.prefix_rfl, fun _ => le_rfl, id,
    fun c => ⟨c.1, c.2.1, c.2.2.1, c.2.2.2.1, c.2.2.2.2.1, k c⟩, id, id, fun _ f => f⟩

/-- The confirmation unit's update, when its entries and its budget stay in range. -/
theorem setConf {v : Confirmation} (h : Internal s t)
    (k : t.CountsBounded → v.entries.length ≤ Config.pendingMax ∧ v.budget ≤ 16) : Internal s (t.setConf v) :=
  h.trans ⟨rfl, rfl, rfl, rfl, rfl, List.prefix_rfl, fun _ => le_rfl, id, fun c => ⟨(k c).1, (k c).2, c.2.2⟩, id, id, fun _ f => f⟩

/-- The outbound queue's update, when it keeps the tag counter and grows no longer. -/
theorem setOut {v : Outbound} (h : Internal s t) (k : v.tagCounter = t.out.tagCounter)
    (l : v.entries.length ≤ t.out.entries.length) : Internal s (t.setOut v) :=
  h.trans ⟨by simp [State.fixed, k], rfl, rfl, rfl, rfl, List.prefix_rfl, fun _ => le_rfl, id,
    fun c => ⟨c.1, c.2.1, l.trans c.2.2.1, by simpa [k] using c.2.2.2.1, by simpa [k] using c.2.2.2.2.1, c.2.2.2.2.2⟩, id, id, fun _ f => f⟩

/-- The directory's update, when the window keeps its shape and the counts stay right. -/
theorem setDir {v : Directory} (h : Internal s t) (k : t.WindowShaped → v.Shaped) (n : t.dir.Counted → v.Counted)
    (f : t.WindowShaped → t.dir.Filled → v.Filled) : Internal s (t.setDir v) :=
  h.trans ⟨rfl, rfl, rfl, rfl, rfl, List.prefix_rfl, fun _ => le_rfl, id, id, fun c => ⟨c.1, k c⟩, n, f⟩

/-- The directory's update, when window and frontier stay. -/
theorem setDir_same {v : Directory} (h : Internal s t) (w : v.window = t.dir.window) (f : v.frontier = t.dir.frontier)
    (n : t.dir.Counted → v.Counted) (k : t.dir.Filled → v.Filled) : Internal s (t.setDir v) :=
  h.setDir (fun c => by rw [Directory.Shaped, w, f]; exact c.2) n fun _ => k

/-! ## Notices -/

@[simp] theorem post {n : Notice} (h : Internal s t) : Internal s (t.post n) := by
  refine h.trans ?_
  unfold State.post LocalPort.post
  split
  · rename_i hn
    exact ⟨rfl, rfl, rfl, rfl, rfl, List.prefix_append _ _, fun _ => le_rfl,
      fun c => ⟨by simpa using hn, c.2⟩, id, id, id, fun _ f => f⟩
  · exact ⟨rfl, rfl, rfl, rfl, rfl, List.prefix_rfl, fun c => by have := c.2; simp; omega,
      fun c => ⟨c.1, by simp⟩, id, id, id, fun _ f => f⟩

@[simp] theorem postAll {l : List Notice} (h : Internal s t) : Internal s (t.postAll l) := by
  induction l generalizing t with
  | nil => exact h
  | cons n rest ih => exact ih (post h)

/-! ## The array port, offers, the choice -/

/-- The sweep engine's update, when it keeps balance and position. -/
@[simp] theorem setSwp_same {v : Sweep} (h : Internal s t) (b : v.balance = t.swp.balance)
    (p : v.position = t.swp.position) : Internal s (t.setSwp v) :=
  h.setSwp fun c => by rw [b, p]; exact c.2.2.2.2.2

/-- The confirmation unit's update, when it keeps entries and budget. -/
@[simp] theorem setConf_same {v : Confirmation} (h : Internal s t) (e : v.entries = t.conf.entries)
    (b : v.budget = t.conf.budget) : Internal s (t.setConf v) :=
  h.setConf fun c => by rw [e, b]; exact ⟨c.1, c.2.1⟩

@[simp] theorem withArb {a : Arbiter} (h : Internal s t) : Internal s (t.withArb a) :=
  h.setArb.setSwp_same rfl rfl

@[simp] theorem place {who : PortClient} {r : Nat} (h : Internal s t) : Internal s (t.place who r) := by
  simp [State.place, h]

@[simp] theorem placeRead (h : Internal s t) : Internal s t.placeRead := by simp [State.placeRead, h]

@[simp] theorem withdraw {who : PortClient} (h : Internal s t) : Internal s (t.withdraw who) := by
  unfold State.withdraw; split <;> simp [h]

@[simp] theorem giveUpGrant {who : PortClient} (h : Internal s t) : Internal s (t.giveUpGrant who) := h.withArb

@[simp] theorem takeGrant {who : PortClient} {op : PortOp} {e : Option Nat} (h : Internal s t) :
    Internal s (t.takeGrant who op e) := by simp [State.takeGrant, h]

@[simp] theorem freePort (h : Internal s t) : Internal s t.freePort := by simp [State.freePort, h]

@[simp] theorem offer {who : Sender} {b : FrameBody} (h : Internal s t) : Internal s (t.offer who b) := h.setSel

@[simp] theorem unoffer {who : Sender} (h : Internal s t) : Internal s (t.unoffer who) := h.setSel

@[simp] theorem reoffer {who : Sender} {b : FrameBody} (h : Internal s t) : Internal s (t.reoffer who b) := by
  unfold State.reoffer; split <;> simp [h]

@[simp] theorem discardFlight {who : Sender} (h : Internal s t) : Internal s (t.discardFlight who) := by
  unfold State.discardFlight; repeat' split
  all_goals simp [h]

@[simp] theorem settleChoice (h : Internal s t) : Internal s t.settleChoice := h.setSel

/-! ## The outbound queue -/

theorem setHead {e : OutEntry} (h : Internal s t) (k : t.out.entries ≠ []) : Internal s (t.setHead e) :=
  h.setOut rfl (by cases c : t.out.entries with
    | nil => exact absurd c k
    | cons => simp)

@[simp] theorem popHead (h : Internal s t) : Internal s t.popHead := h.setOut rfl (by simp)

@[simp] theorem dropHead {e : OutEntry} {r : DropReason} (h : Internal s t) : Internal s (t.dropHead e r) := h.popHead.post

@[simp] theorem dropAll {r : DropReason} (h : Internal s t) : Internal s (t.dropAll r) := by
  unfold State.dropAll
  exact postAll ((unoffer h).setOut rfl (by simp))

@[simp] theorem settleHead (h : Internal s t) : Internal s t.settleHead := by
  unfold State.settleHead
  split
  · rename_i e
    split
    · exact setSel (h.setOut rfl (by simp [e]))
    · exact h.setSel
  · exact h.setSel

@[simp] theorem settleSend (h : Internal s t) : Internal s t.settleSend := h.settleHead.settleChoice

@[simp] theorem recordResult {c : Observed} {r : Bool} (h : Internal s t) : Internal s (t.recordResult c r) := by
  unfold State.recordResult
  split
  · exact h
  · rename_i e
    split
    · dsimp only
      repeat' split
      all_goals first
        | exact h.dropHead
        | exact h.popHead
        | exact h.setHead (by simp [e])
    · exact h

@[simp] theorem endStaleWait (h : Internal s t) : Internal s t.endStaleWait := by
  unfold State.endStaleWait
  split
  · rename_i e
    split
    · exact h.setHead (by simp [e])
    · exact h
  · exact h

@[simp] theorem spendNumbers (h : Internal s t) : Internal s t.spendNumbers := by
  unfold State.spendNumbers; split <;> simp [h]

@[simp] theorem departQueue (h : Internal s t) : Internal s t.departQueue := by
  unfold State.departQueue
  repeat' split
  all_goals first
    | exact h.dropAll
    | exact h.setOut rfl (by simp)

/-! ## What follows by itself -/

@[simp] theorem setRx {x : RxState} (h : Internal s t) : Internal s (t.setRx x) :=
  h.setBus.setSwp_same rfl rfl

@[simp] theorem settleSweep (h : Internal s t) : Internal s t.settleSweep := by
  unfold State.settleSweep; repeat' split
  all_goals simp [h]

@[simp] theorem settleQuiet (h : Internal s t) : Internal s t.settleQuiet := by
  unfold State.settleQuiet; repeat' split
  all_goals simp [h]

@[simp] theorem settleWriter (h : Internal s t) : Internal s t.settleWriter := by
  unfold State.settleWriter; repeat' split
  all_goals simp [h]

@[simp] theorem keepPresence (h : Internal s t) : Internal s t.keepPresence := h.setSel

@[simp] theorem settlePresence (h : Internal s t) : Internal s t.settlePresence := by
  unfold State.settlePresence; repeat' split
  all_goals simp [h]

@[simp] theorem settle (h : Internal s t) : Internal s t.settle :=
  h.settlePresence.settleHead.settleWriter.settleQuiet.settleSweep.settleChoice

/-! ## The directory -/

/-- Another descriptor of a GSN that its slot holds. -/
theorem put {x : Slot} (h : Internal s t) (k : (t.dir.held x.gsn).isSome = true) : Internal s (t.setDir (t.dir.put x)) :=
  h.setDir_same rfl rfl .put fun f => f.put k

end Internal

/-! ## Window and frontier under the directory's operations -/

theorem foldl_keeps {α β γ : Type} (f : α → β → α) (p : α → γ) (k : ∀ a b, p (f a b) = p a) (l : List β) (a : α) :
    p (l.foldl f a) = p a := by
  induction l generalizing a with
  | nil => rfl
  | cons b rest ih => rw [List.foldl_cons, ih, k]

@[simp] theorem put_window (d : Directory) (x : Slot) : (d.put x).window = d.window := rfl
@[simp] theorem put_frontier (d : Directory) (x : Slot) : (d.put x).frontier = d.frontier := rfl
@[simp] theorem vacate_window (d : Directory) (g : Nat) : (d.vacate g).window = d.window := rfl
@[simp] theorem vacate_frontier (d : Directory) (g : Nat) : (d.vacate g).frontier = d.frontier := rfl

@[simp] theorem markLost_window (d : Directory) (l : List Nat) : (d.markLost l).window = d.window :=
  foldl_keeps _ Directory.window (fun a b => by split <;> rfl) l d

@[simp] theorem markLost_frontier (d : Directory) (l : List Nat) : (d.markLost l).frontier = d.frontier :=
  foldl_keeps _ Directory.frontier (fun a b => by split <;> rfl) l d

@[simp] theorem rollBack_window (d : Directory) (e : PendEntry) : (d.rollBack e).window = d.window := by
  unfold Directory.rollBack; split <;> rfl

@[simp] theorem rollBack_frontier (d : Directory) (e : PendEntry) : (d.rollBack e).frontier = d.frontier := by
  unfold Directory.rollBack; split <;> rfl

@[simp] theorem raise_window (d : Directory) (w : Window) (a b c : Nat) :
    (d.raise w a b c).dir.window = some { low := max w.low (a - 4095), high := a } := rfl

theorem live_shaped (d : Directory) (x : Slot) (h : d.Shaped) : (d.live x).dir.Shaped := by
  unfold Directory.live
  split
  · simp [Directory.Shaped]
  · rename_i w hw
    have := h w hw
    dsimp only
    split
    · exact h
    · simp [Directory.Shaped]; omega

theorem presence_shaped (d : Directory) (p : Nat) (h : d.Shaped) : (d.presence p).dir.Shaped := by
  unfold Directory.presence
  split
  · exact h
  · split
    · rename_i hw; simp [Directory.Shaped, hw]
    · rename_i w hw
      have := h w hw
      simp [Directory.Shaped]; omega

theorem found_shaped (d : Directory) (h : d.Shaped) : d.found.Shaped := by
  intro w hw
  simp [Directory.found] at hw ⊢
  have := h w hw
  simp [Directory.foundingFrontier, hw]; omega

theorem learnFresh_shaped (d : Directory) (hw : d.window = none) (n : Nat) (hn : n ≤ 4095) (f : Nat) :
    (d.learnFresh n f).dir.Shaped := by
  unfold Directory.learnFresh
  split
  · simp [Directory.Shaped, hw]
  · simp [Directory.Shaped]; omega

theorem learn_shaped (d : Directory) (n : Nat) (hn : n ≤ 4095) (f : Nat) (h : d.Shaped) : (d.learn n f).1.dir.Shaped := by
  unfold Directory.learn
  split
  · rename_i hw; exact learnFresh_shaped d hw n hn f
  · rename_i w hw
    have := h w hw
    split
    · exact learnFresh_shaped _ rfl n hn f
    · split
      · simp [Directory.Shaped, hw]; omega
      · simp [Directory.Shaped]; omega

end Sys2Proof.Machine
end

