-- ==== Sys2Proof/Laws/Working.lean ====
section
/-! SUPPORT. The working of the catch-up unit, the membership unit and the confirmation unit is internal: one lemma per
operation. -/

namespace Sys2Proof.Machine.Internal

variable {s t : State} {b : Batch}

/-! ## Batches -/

@[simp] theorem flush (h : Internal s b.st) : Internal s b.flush := h.postAll

@[simp] theorem enter {x : StationState} (h : Internal s b.st) : Internal s (b.enter x).st := h.setMem

/-! ## The catch-up unit -/

@[simp] theorem setRequester {c : Option RequesterCtx} (h : Internal s t) : Internal s (t.setRequester c) := h.setCat

@[simp] theorem setResponder {c : Option ResponderCtx} (h : Internal s t) : Internal s (t.setResponder c) := h.setCat

@[simp] theorem offerFetch {c : RequesterCtx} {k : Station} (h : Internal s t) : Internal s (t.offerFetch c k) :=
  h.setCat.reoffer

@[simp] theorem endRequester (h : Internal s b.st) : Internal s b.endRequester.st := by
  unfold Batch.endRequester
  split
  · exact h
  · exact h.unoffer.discardFlight.setRequester

@[simp] theorem giveUp {l : List Nat} (h : Internal s b.st) : Internal s (b.giveUp l).st :=
  h.setDir_same (by simp) (by simp) .markLost .markLost

theorem select {n : Nat} (h : Internal s b.st) : Internal s (b.select n).st := by
  induction n generalizing b with
  | zero => exact h
  | succ n ih =>
    rw [Batch.select]
    split
    · exact h
    · dsimp only
      split
      · exact h.unoffer.setRequester
      · split
        · exact h.endRequester
        · split
          · exact h.offerFetch
          · split
            · exact ih (giveUp h.unoffer.setRequester)
            · split
              · exact ih (giveUp h.unoffer.setRequester)
              · exact h.unoffer.setRequester

@[simp] theorem selectResponder (h : Internal s b.st) : Internal s b.selectResponder.st := h.select

@[simp] theorem completeAttempt {c : RequesterCtx} {k : Station} (h : Internal s b.st) :
    Internal s (b.completeAttempt c k).st := selectResponder h.setRequester

@[simp] theorem applyTimeout {c : RequesterCtx} {k : Station} (h : Internal s b.st) :
    Internal s (b.applyTimeout c k).st := by
  unfold Batch.applyTimeout
  split
  · exact endRequester (giveUp h.setRequester)
  · exact selectResponder h.setRequester

@[simp] theorem timeOut (h : Internal s b.st) : Internal s b.timeOut.st := by
  unfold Batch.timeOut
  repeat' split
  all_goals first
    | exact h
    | exact h.setRequester
    | exact h.applyTimeout

@[simp] theorem recheck (h : Internal s b.st) : Internal s b.recheck.st := by
  unfold Batch.recheck
  dsimp only
  repeat' split
  all_goals first
    | exact h
    | exact h.endRequester
    | exact h.completeAttempt
    | exact h.applyTimeout
    | exact h.offerFetch
    | exact h.selectResponder

@[simp] theorem applyRetired {l : List Nat} (h : Internal s t) : Internal s (t.applyRetired l) := by
  unfold State.applyRetired
  split
  · exact h
  · exact h.setRequester

@[simp] theorem presenceWait (h : Internal s b.st) : Internal s b.presenceHeard.st := by
  unfold Batch.presenceHeard
  repeat' split
  all_goals first
    | exact h
    | exact h.selectResponder

@[simp] theorem replayHeard {k : Station} {g : Nat} {f : Bool} (h : Internal s b.st) :
    Internal s (b.replayHeard k g f).st := by
  unfold Batch.replayHeard
  split
  · split
    · exact h
    · exact h
  · exact h.setRequester

@[simp] theorem goneHeard {k : Station} {g n : Nat} (h : Internal s b.st) : Internal s (b.goneHeard k g n).st := by
  unfold Batch.goneHeard
  dsimp only
  repeat' split
  all_goals first
    | exact h
    | exact h.setRequester

@[simp] theorem fetchResult {x : Bool} (h : Internal s t) : Internal s (t.fetchResult x) := by
  unfold State.fetchResult
  repeat' split
  all_goals first
    | exact h
    | exact h.setRequester

@[simp] theorem gapReport (h : Internal s b.st) : Internal s b.gapReport.st := by
  unfold Batch.gapReport
  repeat' split
  all_goals first
    | exact h
    | exact h.enter

@[simp] theorem formContext (h : Internal s b.st) : Internal s b.formContext.st := by
  unfold Batch.formContext
  split
  · exact h
  · exact selectResponder h.setRequester

theorem formContexts {n : Nat} (h : Internal s b.st) : Internal s (b.formContexts n).st := by
  induction n generalizing b with
  | zero => exact h.gapReport
  | succ n ih =>
    rw [Batch.formContexts]
    split
    · exact ih h.gapReport.formContext
    · exact h.gapReport

@[simp] theorem followGaps (h : Internal s b.st) : Internal s b.followGaps.st := h.formContexts

@[simp] theorem offerResponse {r : ResponderCtx} {f : FrameBody} (h : Internal s t) : Internal s (t.offerResponse r f) :=
  h.setResponder.reoffer

@[simp] theorem respDecide {r : ResponderCtx} (h : Internal s t) : Internal s (t.respDecide r) := by
  unfold State.respDecide
  repeat' split
  all_goals first
    | exact h
    | exact h.offerResponse
    | exact h.setResponder.place

@[simp] theorem respSettle (h : Internal s t) : Internal s t.respSettle := by
  unfold State.respSettle
  repeat' split
  all_goals first
    | exact h
    | exact h.respDecide

@[simp] theorem endResponder (h : Internal s t) : Internal s t.endResponder := by
  unfold State.endResponder
  split
  · exact h
  · exact h.unoffer.discardFlight.withdraw.setResponder.setArb

@[simp] theorem takeFetch {k : Station} {g n : Nat} (h : Internal s t) : Internal s (t.takeFetch k g n) := by
  unfold State.takeFetch
  split
  · exact h
  · exact h.respDecide

@[simp] theorem respResult {x y : Bool} (h : Internal s t) : Internal s (t.respResult x y) := by
  unfold State.respResult
  dsimp only
  repeat' split
  all_goals first
    | exact h
    | exact h.endResponder
    | exact h.respDecide
    | exact h.setResponder
    | exact h.offerResponse

@[simp] theorem clearContexts (h : Internal s b.st) : Internal s b.clearContexts.st := endRequester h.endResponder

@[simp] theorem suspendContexts (h : Internal s t) : Internal s t.suspendContexts := by
  unfold State.suspendContexts
  dsimp only
  repeat' split
  all_goals first
    | exact h.withdraw
    | exact h.withdraw.setRequester

/-! ## The membership unit -/

@[simp] theorem peerHeard {k : Station} {f : FrameBody} (h : Internal s t) : Internal s (t.peerHeard k f) := by
  unfold State.peerHeard
  dsimp only
  split
  · exact h.setMem.post
  · exact h.setMem

@[simp] theorem flagFault (h : Internal s t) : Internal s t.flagFault := by
  unfold State.flagFault
  split
  · exact h.setMem
  · exact h

@[simp] theorem checkDivergence {k : Station} {p : Nat} {c : Check} (h : Internal s t) :
    Internal s (t.checkDivergence k p c) := by
  unfold State.checkDivergence
  dsimp only
  repeat' split
  all_goals first
    | exact h
    | exact h.setMem.flagFault
    | exact h.setMem.flagFault.post

@[simp] theorem resetPeers (h : Internal s t) : Internal s t.resetPeers := h.setMem

@[simp] theorem visit {k : Station} (h : Internal s t) : Internal s (t.visit k) := by
  unfold State.visit
  dsimp only
  split
  · exact h.setMem.post
  · exact h.setMem

theorem visitAll {l : List Station} (h : Internal s t) : Internal s (l.foldl State.visit t) := by
  induction l generalizing t with
  | nil => exact h
  | cons k rest ih => exact ih h.visit

@[simp] theorem retune {x : RxState} (h : Internal s t) : Internal s (t.retune x) := by
  unfold State.retune
  exact h.setMem.setBus.setRx.setFilter.setConf_same rfl rfl

@[simp] theorem finishOwn {x : RxState} (h : Internal s t) : Internal s (t.finishOwn x) := h.setBus.setRx.setFilter

@[simp] theorem switchTo {x : RxState} (h : Internal s t) : Internal s (t.switchTo x) := by
  unfold State.switchTo
  split
  · exact h.finishOwn
  · exact h.retune

@[simp] theorem enterState {x : StationState} (h : Internal s t) : Internal s (t.enter x) := h.setMem.post

@[simp] theorem enterListening (h : Internal s t) : Internal s t.enterListening := by
  unfold State.enterListening
  dsimp only
  split
  · exact h.setMem.enterState
  · exact h.setMem.switchTo.enterState

@[simp] theorem reachIdle (h : Internal s t) : Internal s t.reachIdle := h.setRx.setMem

@[simp] theorem learn {f : Nat} (h : Internal s t) : Internal s (t.learn f) := by
  unfold State.learn
  have n : t.DepthInRange → t.historyDepth ≤ 4095 := fun c => by
    unfold State.historyDepth
    split
    · rename_i p hp; exact c p hp
    · simp
  have k : t.WindowShaped → ((t.dir.learn t.historyDepth f).1.dir).Shaped := fun c => learn_shaped _ _ (n c.1) _ c.2
  have f : t.WindowShaped → t.dir.Filled → ((t.dir.learn t.historyDepth f).1.dir).Filled := fun c g =>
    g.learn c.2 (n c.1)
  refine reoffer (setMem ?_)
  dsimp only
  split
  · exact postAll (h.post.setDir k .learn f)
  · exact postAll (h.setDir k .learn f)

@[simp] theorem groupHeard {k : Station} {f : FrameBody} (h : Internal s b.st) : Internal s (b.groupHeard k f).st := by
  unfold Batch.groupHeard
  dsimp only
  repeat' split
  all_goals first
    | exact learn (setMem (setMem (unoffer h.peerHeard)))
    | exact setMem (setMem (setMem (unoffer h.peerHeard)))
    | exact learn h.peerHeard
    | exact h.peerHeard

@[simp] theorem enterGroup (h : Internal s b.st) : Internal s b.enterGroup.st :=
  enter (b := b.on _) (setMem (h.setConf fun c => ⟨c.1, by simp⟩))

@[simp] theorem voidPending (h : Internal s t) : Internal s t.voidPending := by
  unfold State.voidPending
  refine setConf ((h.setDir_same ?_ ?_ ?_ ?_)) fun c => ⟨(List.length_filter_le _ _).trans c.1, c.2.1⟩
  · exact foldl_keeps _ Directory.window (fun _ _ => by simp) _ _
  · exact foldl_keeps _ Directory.frontier (fun _ _ => by simp) _ _
  · exact fun n => n.foldl (fun _ _ c => c.rollBack) _
  · exact fun f => f.foldl (fun _ _ c => c.rollBack) _

@[simp] theorem requestDrain (h : Internal s t) : Internal s t.requestDrain := h.voidPending.setConf_same rfl rfl

@[simp] theorem enterLeaving {r : LeaveReason} (h : Internal s t) : Internal s (t.enterLeaving r) :=
  h.unoffer.suspendContexts.setMem.enterState.offer

@[simp] theorem detach (h : Internal s t) : Internal s t.detach := h.setMem.switchTo.enterState

@[simp] theorem endGroupPart (h : Internal s b.st) : Internal s b.endGroupPart.st :=
  requestDrain (resetPeers (clearContexts (b := b.on _) h.setMem.unoffer.departQueue))

@[simp] theorem leaveResult {x : Bool} (h : Internal s b.st) : Internal s (b.leaveResult x).st := by
  unfold Batch.leaveResult
  repeat' split
  all_goals first
    | exact h
    | exact h.endGroupPart
    | exact h.setMem.offer
    | exact endGroupPart (b := b.on _) h.setMem

@[simp] theorem enterFault (h : Internal s b.st) : Internal s b.enterFault.st :=
  switchTo (requestDrain (resetPeers (clearContexts (b := (b.enter .fault).on _) h.enter.setMem.unoffer.departQueue)))

@[simp] theorem duplicateFound (h : Internal s t) : Internal s t.duplicateFound :=
  flush (enterFault (b := State.batch _) h.post.setFilter)

@[simp] theorem objectionFault (h : Internal s t) : Internal s t.objectionFault := by
  unfold State.objectionFault
  split
  · exact h
  · exact h.setBus.post.flagFault

@[simp] theorem enterHeld (h : Internal s t) : Internal s t.enterHeld := by
  unfold State.enterHeld
  exact place (setSwp_same (withdraw (enterState (switchTo (setMem h)))) rfl rfl)

@[simp] theorem drained (h : Internal s b.st) : Internal s b.drained.st := by
  unfold Batch.drained
  repeat' split
  all_goals first
    | exact h
    | exact h.enterHeld
    | exact h.detach
    | exact h.enterGroup

/-! ## The confirmation unit -/

theorem pendingEntry_room {t : State} {c : Classified} {own : Bool} {e : PendEntry}
    (d : t.decideFrame c = some .noObjection) (h : t.pendingEntry c own = some e) : t.conf.entries.length < Config.pendingMax := by
  unfold State.decideFrame at d
  unfold State.pendingEntry at h
  split at d
  · cases d
  · split at h
    · simp only [Option.some.injEq] at d
      unfold State.decideGeneral at d
      dsimp only at d
      split at d
      · cases d
      · split at d
        · cases d
        · omega
    · simp only [Option.some.injEq] at d
      unfold State.decideAddressed at d
      dsimp only at d
      split at h
      · cases h
      · rename_i hp
        rw [if_neg hp] at d
        split at d
        · cases d
        · omega
    · cases h

@[simp] theorem judge {c : Classified} {own : Bool} (h : Internal s t) : Internal s (t.judge c own) := by
  unfold State.judge
  split
  · exact h.setConf_same rfl rfl
  · rename_i d hd
    split
    · rename_i e he
      refine h.setConf fun k => ⟨?_, k.2.1⟩
      split at he
      · rename_i hn
        subst hn
        have := pendingEntry_room hd he
        simp; omega
      · cases he
    · exact h.setConf_same rfl rfl

@[simp] theorem endFrame {r : ReceiveRecord} (h : Internal s t) : Internal s (t.endFrame r) := by
  unfold State.endFrame
  dsimp only
  split
  · exact h.setRx.setFilter.setBus
  · exact h.setRx.setFilter.judge.setBus

@[simp] theorem setEntries {l : List PendEntry} (h : Internal s t) (k : l.length ≤ t.conf.entries.length) :
    Internal s (t.setEntries l) := h.setConf fun c => ⟨k.trans c.1, c.2.1⟩

theorem replaceEntry_length (g : Nat) (e : PendEntry) (l : List PendEntry) : (replaceEntry g e l).length = l.length := by
  simp [replaceEntry]

theorem removeEntry_length (g : Nat) (l : List PendEntry) : (removeEntry g l).length ≤ l.length := List.length_filter_le _ _

@[simp] theorem confirmEntry {e : PendEntry} (h : Internal s t) : Internal s (t.confirmEntry e) :=
  h.setConf fun c => ⟨by simpa [replaceEntry_length] using c.1, c.2.1⟩

@[simp] theorem declineEntry {e : PendEntry} (h : Internal s t) : Internal s (t.declineEntry e) :=
  h.setConf fun c => ⟨(removeEntry_length _ _).trans c.1, c.2.1⟩

@[simp] theorem postCommitted {e : PendEntry} (h : Internal s t) : Internal s (t.postCommitted e) := by
  unfold State.postCommitted
  split
  · exact h.post
  · exact h

theorem journal {c : JournalChange} (h : Internal s t) (k : t.WindowShaped → c.dir.Shaped)
    (n : t.dir.Counted → c.dir.Counted) (f : t.WindowShaped → t.dir.Filled → c.dir.Filled) : Internal s (t.journal c) :=
  postAll (h.setDir k n f)

theorem confirmed {e : PendEntry} (h : Internal s t) : Internal s (t.confirmed e).st := by
  unfold State.confirmed
  dsimp only
  split
  · have k := h.setEntries (removeEntry_length e.gsn t.conf.entries)
    split
    · exact postCommitted (k.journal (fun c => live_shaped _ _ c.2) .live fun c f => f.live c.2)
    · split
      · rename_i g
        exact k.put (Directory.held_of_holdsTentative g)
      · exact k
  · split
    · exact h.confirmEntry.journal (fun c => live_shaped _ _ c.2) .live fun c f => f.live c.2
    · split
      · rename_i g
        exact h.confirmEntry.put (Directory.held_of_holdsGap (d := t.dir) g)
      · exact h.declineEntry

@[simp] theorem applyOutcome {x : Bool} (h : Internal s t) : Internal s (t.applyOutcome x).st := by
  unfold State.applyOutcome
  dsimp only
  repeat' split
  all_goals first
    | exact h
    | exact h.confirmed
    | exact h.voidPending

theorem nextBudget_le (n : Nat) (d : Decision) (c : Observed) (h : n ≤ 16) : nextBudget n d c ≤ 16 := by
  unfold nextBudget
  repeat' split
  all_goals omega

@[simp] theorem countBudget {c : Observed} (h : Internal s t) : Internal s (t.countBudget c) := by
  unfold State.countBudget
  split
  · exact h
  · refine h.setConf fun k => ⟨k.1, ?_⟩
    dsimp only
    split
    · exact nextBudget_le _ _ _ k.2.1
    · exact k.2.1

@[simp] theorem foundResult {f : FrameBody} {x : Bool} (h : Internal s b.st) : Internal s (b.foundResult f x).st := by
  unfold Batch.foundResult
  repeat' split
  all_goals first
    | exact h
    | exact enterGroup (b := b.on _) (postAll (h.setDir (fun c => found_shaped _ c.2) .found fun _ f => f.found))
    | exact h.offer

@[simp] theorem joinResult {f : FrameBody} {x : Bool} (h : Internal s b.st) : Internal s (b.joinResult f x).st := by
  unfold Batch.joinResult
  repeat' split
  all_goals first
    | exact h
    | exact h.offer
    | exact h.setMem
    | exact h.enterGroup

@[simp] theorem presenceResult {x : Bool} (h : Internal s t) : Internal s (t.presenceResult x) := by
  unfold State.presenceResult
  split
  · exact h.offer
  · exact h

@[simp] theorem memberResult {f : FrameBody} {x : Bool} (h : Internal s b.st) : Internal s (b.memberResult f x).st := by
  unfold Batch.memberResult
  split
  · exact h.foundResult
  · exact h.joinResult
  · exact h.leaveResult
  · exact h.presenceResult
  · exact h

@[simp] theorem ownConfirmed (h : Internal s t) : Internal s t.ownConfirmed := by
  unfold State.ownConfirmed
  dsimp only
  repeat' split
  all_goals first
    | exact h.setMem.unoffer
    | exact h.setMem

@[simp] theorem finishDeparture (h : Internal s t) : Internal s t.finishDeparture := by
  unfold State.finishDeparture
  split
  · exact h.dropAll
  · exact h

@[simp] theorem deliver {c : Observed} {r : Bool} (h : Internal s b.st) : Internal s (b.deliver c r).st := by
  unfold Batch.deliver
  split
  · exact h
  · have k := h.setSel (v := { b.st.sel with inFlight := none })
    dsimp only
    have k : Internal s (if c = .none then (b.on fun s => s.setSel { s.sel with inFlight := none }).on State.ownConfirmed
        else b.on fun s => s.setSel { s.sel with inFlight := none }).st := by
      split
      · exact ownConfirmed k
      · exact k
    generalize (if c = .none then (b.on fun s => s.setSel { s.sel with inFlight := none }).on State.ownConfirmed
        else b.on fun s => s.setSel { s.sel with inFlight := none }) = d at k ⊢
    repeat' split
    all_goals first
      | exact k
      | exact k.setSwp_same rfl rfl
      | exact k.memberResult
      | exact k.fetchResult
      | exact k.respResult
      | exact k.recordResult.finishDeparture

theorem presenceWork {k : Station} {p : Nat} {c : Check} (h : Internal s t) : Internal s (t.presenceHeard k p c).1 :=
  h.checkDivergence.journal (fun c => presence_shaped _ _ c.2) .presence fun c f => f.presence c.2

@[simp] theorem peerLeft {k : Station} (h : Internal s b.st) : Internal s (b.peerLeft k).st := by
  have r : Internal s (b.on fun s =>
      match s.cat.responder with
      | some r => if r.requester = k then s.endResponder else s
      | none => s).st := by
    dsimp only [Batch.on]
    repeat' split
    all_goals first
      | exact h
      | exact h.endResponder
  unfold Batch.peerLeft
  dsimp only
  repeat' split
  all_goals first
    | exact r
    | exact timeOut (b := b.on _) r

@[simp] theorem handMember {k : Station} {f : FrameBody} {x : Bool} {l : List Nat} (h : Internal s b.st) :
    Internal s (b.handMember k f x l).st := by
  have p := h.peerHeard (k := k) (f := f)
  unfold Batch.handMember
  dsimp only
  repeat' split
  all_goals first
    | exact p
    | exact presenceWait (recheck (b := Batch.on _ _) (applyRetired p.presenceWork))
    | exact peerLeft (b := b.on _) p
    | exact p.takeFetch
    | exact goneHeard (b := b.on _) p
    | exact replayHeard (b := b.on _) p
    | exact p.applyRetired

@[simp] theorem handOn {c : Option Classified} {x : Bool} {l : List Nat} (h : Internal s b.st) :
    Internal s (b.handOn c x l).st := by
  unfold Batch.handOn
  repeat' split
  all_goals first
    | exact h
    | exact h.handMember
    | exact h.groupHeard

@[simp] theorem afterWindow (h : Internal s t) : Internal s t.afterWindow := by
  unfold State.afterWindow
  repeat' split
  all_goals first
    | exact h
    | exact h.setRx.setBus

@[simp] theorem finishSwitch (h : Internal s t) : Internal s t.finishSwitch := by
  unfold State.finishSwitch
  split
  · split
    · exact h
    · exact h.retune
  · exact h

@[simp] theorem afterOutcome {n : Nat} (h : Internal s b.st) : Internal s (b.afterOutcome n).st := by
  refine followGaps (b := Batch.on _ _) ?_
  show Internal s (State.spendNumbers (if _ then _ else _))
  refine spendNumbers ?_
  split
  · exact (recheck h).respSettle.endStaleWait
  · exact (recheck h).respSettle

theorem closeJudged {w : WindowRun} {c : Observed} (h : Internal s t) : Internal s (t.closeJudged w c).st := by
  have k := ((h.setFilter (v := { receive := t.filter.receive, window := none })).applyOutcome
    (x := decide (c = .none))).countBudget (c := c)
  unfold State.closeJudged
  dsimp only
  generalize (t.setFilter { receive := t.filter.receive, window := none }).applyOutcome (decide (c = .none)) = o at k ⊢
  generalize o.st.countBudget c = u at k ⊢
  split
  · split
    · exact enterFault (deliver (b := State.batch u) k)
    · exact enterFault (b := State.batch u) k
  · refine afterOutcome ?_
    split
    · exact applyRetired (deliver (b := State.batch u) k)
    · split
      · exact handOn (b := State.batch u) k
      · exact k

theorem closeOverlapping {w : WindowRun} {c : Observed} (h : Internal s t) : Internal s (t.closeOverlapping w c).st := by
  unfold State.closeOverlapping
  split
  · exact afterOutcome (deliver (b := State.batch _) h)
  · exact h

@[simp] theorem finish (h : Internal s b.st) : Internal s b.finish := (flush (followGaps (recheck h))).settle

end Sys2Proof.Machine.Internal
end

