-- ==== Sys2Proof/Laws/Follow.lean ====
section
/-! SUPPORT. What follows by itself from a change: `State.settle` and its parts change nothing but offers, the head's
WAITING or CONTENDING, and requests. -/

namespace Sys2Proof.Machine

namespace Follows

variable {s t : State}

@[simp] theorem refl (s : State) : Follows s s := ⟨rfl, rfl, rfl, rfl, rfl, rfl, rfl, fun _ => rfl, rfl, rfl, rfl⟩

theorem withArb {a : Arbiter} (g : a.grant = s.arb.grant) (r : a.responder = s.arb.responder)
    (l : a.localPort = s.arb.localPort) : Follows s (s.withArb a) :=
  ⟨rfl, rfl, rfl, rfl, rfl, rfl, rfl, fun _ => rfl, g, r, l⟩

/-- The selector changes, but not the frame in flight nor the offers of the catch-up unit. -/
theorem setSel {x : Selector} (i : x.inFlight = s.sel.inFlight) (q : x.requester = s.sel.requester)
    (r : x.responder = s.sel.responder) (m : s.sel.offersPresence = false → x.membership = s.sel.membership) :
    Follows s (s.setSel x) := ⟨rfl, rfl, rfl, rfl, i, q, r, m, rfl, rfl, rfl⟩

theorem placeWriter (n : Nat) : Follows s (s.place .writer n) := withArb rfl rfl rfl

theorem placeSweep (n : Nat) : Follows s (s.place .sweep n) := withArb rfl rfl rfl

theorem withdrawWriter : Follows s (s.withdraw .writer) := by
  unfold State.withdraw
  split
  · exact refl s
  · exact withArb rfl rfl rfl

theorem offerSweep (b : FrameBody) : Follows s (s.offer .sweep b) := setSel rfl rfl rfl fun _ => rfl

theorem unofferSweep : Follows s (s.unoffer .sweep) := setSel rfl rfl rfl fun _ => rfl

theorem settleChoice : Follows s s.settleChoice := setSel rfl rfl rfl fun _ => rfl

theorem settleQuiet : Follows s s.settleQuiet := by
  unfold State.settleQuiet
  repeat' split
  all_goals first
    | exact refl s
    | exact unofferSweep
    | exact offerSweep _

theorem settleWriter : Follows s s.settleWriter := by
  unfold State.settleWriter
  repeat' split
  all_goals first
    | exact refl s
    | exact placeWriter _
    | exact withdrawWriter

theorem settleSweep : Follows s s.settleSweep := by
  unfold State.settleSweep
  repeat' split
  all_goals first
    | exact refl s
    | exact placeSweep _
    | exact withArb rfl rfl rfl

theorem settlePresence : Follows s s.settlePresence := by
  unfold State.settlePresence
  split
  · rename_i h
    have c : s.sel.offersPresence = true := (Bool.and_eq_true _ _ ▸ h).2
    split
    · exact refl s
    · unfold State.reoffer
      split
      · exact setSel rfl rfl rfl fun _ => rfl
      · exact ⟨rfl, rfl, rfl, rfl, rfl, rfl, rfl, fun k => absurd (k.symm.trans c) (by decide), rfl, rfl, rfl⟩
  · exact setSel rfl rfl rfl fun _ => rfl

theorem settleHead : Follows s s.settleHead := by
  unfold State.settleHead
  split
  · rename_i h rest e
    split
    · rename_i w
      refine ⟨rfl, ?_, rfl, rfl, rfl, rfl, rfl, fun _ => rfl, rfl, rfl, rfl⟩
      simp only [setSel_out, setOut_out, e, List.map_cons, List.cons.injEq, and_true]
      cases h
      simp only at w
      rcases w with w | w <;> subst w <;> cases s.mayStartRecord <;> rfl
    · exact setSel rfl rfl rfl fun _ => rfl
  · exact setSel rfl rfl rfl fun _ => rfl

theorem trans {t u : State} (h : Follows s t) (k : Follows t u) : Follows s u where
  same := by
    have e : t.swp = { s.swp with quietSince := t.swp.quietSince } := by rw [h.same]
    rw [k.same, e, h.same]
  queue := k.queue.trans h.queue
  tagCounter := k.tagCounter.trans h.tagCounter
  departing := k.departing.trans h.departing
  inFlight := k.inFlight.trans h.inFlight
  fetchOffer := k.fetchOffer.trans h.fetchOffer
  responseOffer := k.responseOffer.trans h.responseOffer
  memberOffer n := by
    have m := h.memberOffer n
    exact (k.memberOffer (by simpa [Selector.offersPresence, m] using n)).trans m
  grant := k.grant.trans h.grant
  responder := k.responder.trans h.responder
  localPort := k.localPort.trans h.localPort

/-- After an event, what follows by itself. -/
theorem settle (s : State) : Follows s s.settle :=
  settlePresence.trans <| settleHead.trans <| settleWriter.trans <| settleQuiet.trans <| settleSweep.trans settleChoice

theorem settleSend (s : State) : Follows s s.settleSend := settleHead.trans settleChoice

end Follows

/-! ## The head in line (R85) -/

variable {s t : State}

/-- What the start conditions and the head's line depend on. -/
theorem headFollows_of_eq (e : t.out.entries = s.out.entries) (r : t.sel.record = s.sel.record)
    (m : t.mayStartRecord = s.mayStartRecord) (h : s.HeadFollowsConditions) : t.HeadFollowsConditions := by
  unfold State.HeadFollowsConditions at h ⊢
  rw [e, r, m]; exact h

/-- `State.settleHead` brings the head in line, whatever it was. -/
theorem headFollows_settleHead (s : State) : s.settleHead.HeadFollowsConditions := by
  unfold State.settleHead
  split
  · rename_i h rest e
    split
    · unfold State.HeadFollowsConditions
      dsimp only [setSel_out, setOut_out]
      rw [if_pos (by cases s.mayStartRecord <;> simp)]
      exact ⟨rfl, rfl⟩
    · rename_i k
      unfold State.HeadFollowsConditions
      rw [setSel_out, e]
      dsimp only
      rw [if_neg k]; rfl
  · rename_i e
    unfold State.HeadFollowsConditions
    rw [setSel_out, e]; rfl

theorem headFollows_withArb {a : Arbiter} (h : s.HeadFollowsConditions) : (s.withArb a).HeadFollowsConditions :=
  headFollows_of_eq (s := s) rfl rfl rfl h

theorem headFollows_setSel {x : Selector} (h : s.HeadFollowsConditions) (r : x.record = s.sel.record) :
    (s.setSel x).HeadFollowsConditions := headFollows_of_eq (s := s) rfl r rfl h

theorem headFollows_withdraw {who : PortClient} (h : s.HeadFollowsConditions) : (s.withdraw who).HeadFollowsConditions := by
  unfold State.withdraw
  split
  · exact h
  · exact headFollows_withArb h

theorem headFollows_settleWriter (h : s.HeadFollowsConditions) : s.settleWriter.HeadFollowsConditions := by
  unfold State.settleWriter
  repeat' split
  all_goals first
    | exact h
    | exact headFollows_withdraw h

theorem headFollows_settleQuiet (h : s.HeadFollowsConditions) : s.settleQuiet.HeadFollowsConditions := by
  unfold State.settleQuiet
  repeat' split
  all_goals exact h

theorem headFollows_settleSweep (h : s.HeadFollowsConditions) : s.settleSweep.HeadFollowsConditions := by
  unfold State.settleSweep
  repeat' split
  all_goals exact h

/-- After `State.settle` the head is in line. -/
theorem headFollows_settle (s : State) : s.settle.HeadFollowsConditions :=
  headFollows_setSel (headFollows_settleSweep (headFollows_settleQuiet (headFollows_settleWriter (headFollows_settleHead _)))) rfl

/-- After `State.settleSend` the head is in line. -/
theorem headFollows_settleSend (s : State) : s.settleSend.HeadFollowsConditions :=
  headFollows_setSel (headFollows_settleHead _) rfl

end Sys2Proof.Machine
end

