-- ==== Sys2Proof/Laws/Port.lean ====
section
/-! SUPPORT. How a command starts: out of reset, in phase IDLE or not; the bytes a transaction shifts out; answers. -/

namespace Sys2Proof.Machine

variable {s : State} {f : State → State} {n : Nat} {a : Answer} {l : List Byte}

/-- Out of reset a command has its effect. -/
theorem act_released (h : s.resetHeld = false) : s.act f = .next (f s) := by simp [State.act, h]

/-- While RESET_N is low it has none. -/
theorem act_held (h : s.resetHeld = true) : s.act f = .next s := by simp [State.act, h]

theorem transaction_idle (h : s.port.phase = .idle) : s.transaction n f = f (s.shiftOut [] n) := by
  simp [State.transaction, h]

theorem transaction_busy (h : s.port.phase ≠ .idle) : s.transaction n f = s.shiftOut [] n := by
  simp [State.transaction, h]

/-- A command transaction out of reset and in IDLE. -/
theorem act_transaction (h : s.resetHeld = false) (k : s.port.phase = .idle) :
    (s.act fun s => s.transaction n f) = .next (f (s.shiftOut [] n)) := by
  rw [act_released h, transaction_idle k]

theorem shiftOut_eq : s.shiftOut l n =
    { s with freeCount := s.freeCount + n, port := { s.port with sdo := s.portStatus :: (l ++ s.meaningless n) } } := rfl

@[simp] theorem shiftOut_mem : (s.shiftOut l n).mem = s.mem := rfl
@[simp] theorem shiftOut_dir : (s.shiftOut l n).dir = s.dir := rfl
@[simp] theorem shiftOut_array : (s.shiftOut l n).array = s.array := rfl
@[simp] theorem shiftOut_bus : (s.shiftOut l n).bus = s.bus := rfl
@[simp] theorem shiftOut_filter : (s.shiftOut l n).filter = s.filter := rfl
@[simp] theorem shiftOut_conf : (s.shiftOut l n).conf = s.conf := rfl
@[simp] theorem shiftOut_out : (s.shiftOut l n).out = s.out := rfl
@[simp] theorem shiftOut_sel : (s.shiftOut l n).sel = s.sel := rfl
@[simp] theorem shiftOut_cat : (s.shiftOut l n).cat = s.cat := rfl
@[simp] theorem shiftOut_arb : (s.shiftOut l n).arb = s.arb := rfl
@[simp] theorem shiftOut_swp : (s.shiftOut l n).swp = s.swp := rfl
@[simp] theorem shiftOut_temp : (s.shiftOut l n).temp = s.temp := rfl
@[simp] theorem shiftOut_straps : (s.shiftOut l n).straps = s.straps := rfl
@[simp] theorem shiftOut_params : (s.shiftOut l n).params = s.params := rfl
@[simp] theorem shiftOut_now : (s.shiftOut l n).now = s.now := rfl
@[simp] theorem shiftOut_inGroup : (s.shiftOut l n).inGroup = s.inGroup := rfl
@[simp] theorem shiftOut_phase : (s.shiftOut l n).port.phase = s.port.phase := rfl
@[simp] theorem shiftOut_notices : (s.shiftOut l n).port.notices = s.port.notices := rfl
@[simp] theorem shiftOut_lost : (s.shiftOut l n).port.lost = s.port.lost := rfl

/-- A transaction that is only answered. -/
theorem answersOnly_answer : s.AnswersOnly ((s.shiftOut l n).answer a) a := rfl

/-- The membership of the state classes in terms of the station state. -/
theorem inGroup_iff : s.inGroup = true ↔ s.mem.st = .syncing ∨ s.mem.st = .member := by simp [State.inGroup]

theorem inGroup_false : s.inGroup = false ↔ s.mem.st ≠ .syncing ∧ s.mem.st ≠ .member := by
  cases e : s.mem.st <;> simp [State.inGroup, e]

theorem defersDeparture_iff :
    s.defersDeparture = true ↔ s.sel.inFlight ≠ none ∨ s.bus.rx = .preWindow ∨ s.bus.rx = .window := by
  cases e : s.sel.inFlight <;> simp [State.defersDeparture, e]

theorem defersDeparture_false :
    s.defersDeparture = false ↔ s.sel.inFlight = none ∧ s.bus.rx ≠ .preWindow ∧ s.bus.rx ≠ .window := by
  rw [← Bool.not_eq_true, defersDeparture_iff]; tauto

/-- R141: a request that has waited through a grant is granted by rank, whatever else waits. -/
theorem rank_of_grantable {s : State} {who : PortClient} {q p : Request} (h : s.arb.request who = some q)
    (k : s.grantable who = true) (w : p ∈ s.arb.waiting) (f : p.atFree = false) : ∀ x ∈ s.arb.waiting, q.rank ≤ x.rank := by
  have a : s.arrivedTogether = false := by
    simp only [State.arrivedTogether, List.all_eq_false]
    exact ⟨p, w, by simp [f]⟩
  simp only [State.grantable, h, a, Bool.or_false, Bool.and_eq_true, List.all_eq_true, decide_eq_true_eq] at k
  exact k.2

/-- After a grant every request that waits has waited through it. -/
theorem atFree_of_granting {a : Arbiter} {who : PortClient} {p : Request} (h : p ∈ (a.granting who).waiting) :
    p.atFree = false := by
  simp only [Arbiter.granting, Arbiter.waiting, List.mem_append, Option.mem_toList, Option.map_eq_some_iff] at h
  rcases h with ((⟨x, _, rfl⟩ | ⟨x, _, rfl⟩) | ⟨x, _, rfl⟩) | ⟨x, _, rfl⟩ <;> rfl

/-- R164: while the exit pass waits no READ can be granted. -/
theorem grantable_localPort_of_exitPass {s : State} {q r : Request} (h : s.arb.sweep = some q) (k : q.rank = 2)
    (l : s.arb.localPort = some r) (m : r.rank = 5) : s.grantable .localPort = false := by
  have mem : q ∈ s.arb.waiting := by simp [Arbiter.waiting, h]
  have a : s.arrivedTogether = false := by
    simp only [State.arrivedTogether, List.all_eq_false]
    exact ⟨q, mem, by simp [k]⟩
  have b : s.arb.waiting.all (fun x => r.rank ≤ x.rank) = false := by
    simp only [List.all_eq_false]
    exact ⟨q, mem, by simp [k, m]⟩
  simp [State.grantable, Arbiter.request, l, a, b]

end Sys2Proof.Machine
end

