-- ==== Sys2Proof/Laws/Commands.lean ====
section
/-! SUPPORT. What each command can do beside its own block: the bus events, timers, grants and sweeps only move the clock and
then work as `Internal` says. One lemma per command. -/

namespace Sys2Proof.Machine

variable {s : State}

/-- A clock that is moved to its own instant stands. -/
@[simp] theorem at_self (s : State) : s.at s.now = s := by
  simp only [State.at, max_self]
  rfl

/-- The command gives a next state that the blocks' working leads to, from the state with its clock moved on. -/
def Works (o : Host.Outcome State Fault Refusal) (s : State) : Prop :=
  ∃ due t, o = .next t ∧ Internal (s.at due) t

namespace Works

theorem same : Works (.next s) s := ⟨s.now, s, rfl, by simp⟩

theorem now {t : State} (h : Internal s t) : Works (.next t) s := ⟨s.now, t, rfl, by simpa using h⟩

/-- A command out of or in reset. -/
theorem act {f : State → State} (h : Works (.next (f s)) s) : Works (s.act f) s := by
  unfold State.act
  split
  · exact same
  · exact h

/-- A command that branches on a condition. -/
theorem ite {c : Prop} [Decidable c] {t u : State} (h : c → Works (.next t) s) (k : ¬c → Works (.next u) s) :
    Works (.next (if c then t else u)) s := by
  split
  · exact h ‹_›
  · exact k ‹_›

end Works

open Internal

/-- A moved clock. -/
theorem Works.moved {t : State} (due : Nat) (h : Internal (s.at due) t) : Works (.next t) s := ⟨due, t, rfl, h⟩

@[simp] theorem Internal.beginFrame {t : State} {own : Bool} (h : Internal s t) : Internal s (t.beginFrame own) :=
  h.setRx.setBus.setFilter

theorem Internal.choose {c : Prop} [Decidable c] {t u : State} (h : Internal s t) (k : Internal s u) :
    Internal s (if c then t else u) := by
  split
  · exact h
  · exact k

theorem frameStart_works : Works (execFrameStart s) s := by
  refine .act ?_
  unfold State.frameStarts
  refine .ite (fun _ => .now (refl s).setBus) fun _ => .ite (fun _ => .now ?_) fun _ => .same
  exact (refl s).setSel.beginFrame.settle

theorem syncWaitEnd_works : Works (execSyncWaitEnd s) s :=
  .act (.ite (fun _ => .moved _ (refl _).reachIdle.settle) fun _ => .same)

@[simp] theorem Internal.startChoice {t : State} {who : Sender} (h : Internal s t) : Internal s (t.startChoice who) := by
  unfold State.startChoice
  split
  · unfold State.startRecord
    split
    · exact h
    · rename_i e; exact (h.setHead (by simp [e])).setSel
  · exact h.setSel
  · exact h

theorem ownFrameStart_works : Works (execOwnFrameStart s) s := by
  refine .act ?_
  split
  · exact .same
  · exact .ite (fun _ => .now (refl s).startChoice.beginFrame.settle) fun _ => .same

@[simp] theorem Internal.returnOffer {t : State} {f : InFlight} (h : Internal s t) : Internal s (t.returnOffer f) := by
  unfold State.returnOffer
  have k := h.setSel (v := { t.sel with inFlight := none })
  dsimp only
  split
  · exact k
  · split
    · rename_i e; exact k.setHead (fun c => nomatch e.symm.trans c)
    · exact k
    · exact k.offer.keepPresence

@[simp] theorem Internal.leaveLost {b : Batch} (h : Internal s b.st) : Internal s b.leaveLost.st := by
  unfold Batch.leaveLost
  repeat' split
  all_goals first
    | exact h
    | exact h.endGroupPart

theorem arbitrationLost_works : Works (execArbitrationLost s) s := by
  refine .act ?_
  dsimp only
  split
  · exact .now (settle (flush (followGaps (recheck (leaveLost (b := State.batch _) (setMem (setFilter (refl s).returnOffer)))))))
  · exact .same

theorem readbackFailure_works : Works (execReadbackFailure s) s := by
  refine .act ?_
  dsimp only
  split
  · exact .now (refl s).setFilter
  · exact .same

theorem duplicateStation_works : Works (execDuplicateStation s) s := by
  refine .act ?_
  split
  · exact .ite (fun _ => .now (refl s).duplicateFound.settle) fun _ => .same
  · exact .same

theorem frameEnds_works (r : ReceiveRecord) (due : Nat) : Works (.next (s.frameEnds r due)) s := by
  unfold State.frameEnds
  exact .ite (fun _ => .moved _ (refl _).duplicateFound.settle) fun _ => .moved _ (refl _).endFrame.settle

theorem frameEnd_works (b : List Byte) (l : List FramingLevels) : Works (execFrameEnd b l s) s := by
  refine .act ?_
  dsimp only
  split
  · exact .ite (fun _ => frameEnds_works _ _) fun _ => .same
  · exact .same

theorem lineLevels_length (b : List Byte) (l : List FramingLevels) : (lineLevels b l).length = 10 * b.length := by
  induction b generalizing l with
  | nil => rfl
  | cons x rest ih => simp only [lineLevels, byteLevels, bitsOf, List.length_append, List.length_cons, ih]; simp; omega

/-- R34: a 12-bt run behind the bytes that are complete; one dominant bit more where the last stop bit was recessive. -/
theorem truncationLength_bounds (b : List Byte) (l : List FramingLevels) :
    13 + 10 * b.length ≤ truncationLength b l ∧ truncationLength b l ≤ 14 + 10 * b.length := by
  unfold truncationLength brokenOff
  rw [List.length_append, lineLevels_length, List.length_append, List.length_replicate]
  repeat' split
  all_goals simp; try omega

theorem frameTruncated_works (b : List Byte) (l : List FramingLevels) : Works (execFrameTruncated b l s) s := by
  refine .act ?_
  split
  · exact .ite (fun _ => frameEnds_works _ _) fun _ => .same
  · exact .same

theorem windowOpen_works : Works (execWindowOpen s) s := by
  refine .act ?_
  split
  · rename_i w _
    refine .moved w.due (settle (setBus ?_))
    split
    · exact (refl _).setRx
    · exact refl _
  · exact .same

theorem objectionPullEnd_works : Works (execObjectionPullEnd s) s := by
  refine .act ?_
  dsimp only
  split
  · exact .moved _ (refl _).setBus
  · exact .same

theorem closeWindow_works (w : WindowRun) (rest : List WindowRun) (n : Nat) :
    Works (.next (s.closeWindow w rest n)) s := by
  refine .moved w.due (settle (finishSwitch ?_))
  have k := (refl (s.at w.due)).setMem (v := { (s.at w.due).mem with departWait := (s.at w.due).mem.departWait - 1 })
    |>.setBus (v := { (s.at w.due).bus with
    windows := rest, pull := (s.at w.due).bus.pull.filter fun p => decide ((s.at w.due).now < p.ends) }) |>.afterWindow
  have j := Internal.choose (c := w.faultyRun n = true) k.objectionFault k
  refine flush ?_
  split
  · exact closeOverlapping j
  · exact closeJudged j

theorem windowEnd_works (n : Nat) : Works (execWindowEnd n s) s := by
  refine .act ?_
  split
  · exact .ite (fun _ => closeWindow_works _ _ _) fun _ => .same
  · exact .same

theorem separationEnd_works : Works (execSeparationEnd s) s := by
  refine .act (.ite (fun _ => .moved s.bus.sepEnd (settle ?_)) fun _ => .same)
  split
  · exact (refl _).setRx.setBus
  · exact (refl _).setRx

theorem dataLineFault_works : Works (execDataLineFault s) s := by
  refine .act (.ite (fun _ => .now (settle ?_)) fun _ => .same)
  unfold State.dataLineFault
  dsimp only
  split
  · exact (refl s).setBus.post.flagFault.setRx.setBus
  · exact (refl s).setBus.post.flagFault

theorem faultWaitEnd_works : Works (execFaultWaitEnd s) s :=
  .act (.ite (fun _ => .moved _ (refl _).setBus.setFilter.reachIdle.settle) fun _ => .same)

theorem objectionLineFault_works : Works (execObjectionLineFault s) s :=
  .act (.ite (fun _ => .now (refl s).objectionFault) fun _ => .same)

theorem objectionLineRecovery_works : Works (execObjectionLineRecovery s) s :=
  .act (.ite (fun _ => .now (refl s).setBus) fun _ => .same)

/-! ## Timers -/

theorem listenTimerExpiry_works : Works (execListenTimerExpiry s) s := by
  refine .act ?_
  dsimp only
  split
  · exact .moved _ (refl _).setMem.enterState.reoffer.settle
  · exact .same

theorem joinWaitExpiry_works : Works (execJoinWaitExpiry s) s := by
  refine .act ?_
  split
  · exact .moved _ (refl _).enterListening.settle
  · exact .same

theorem leaveTimerExpiry_works : Works (execLeaveTimerExpiry s) s := by
  refine .act ?_
  dsimp only
  split
  · split
    · exact .ite (fun _ => .moved _ (refl _).setMem) fun _ =>
        .moved _ (settle (flush (endGroupPart (b := State.batch _) (refl _))))
    · exact .same
  · exact .same

theorem heartbeatTick_works : Works (execHeartbeatTick s) s := by
  refine .act ?_
  dsimp only
  split
  · rename_i t _
    refine .moved t (finish (b := State.batch _) ?_)
    dsimp only [State.batch]
    split
    · exact visitAll (refl _).setMem
    · exact (refl _).setMem
  · exact .same

theorem peerSilent_works (k : Station) : Works (execPeerSilent k s) s :=
  .act (.ite (fun _ => .now (finish (b := State.batch _) (refl s).setMem.post)) fun _ => .same)

theorem presenceTimerExpiry_works : Works (execPresenceTimerExpiry s) s := by
  refine .act ?_
  dsimp only
  split
  · exact .ite (fun _ => .moved _ (refl _).setMem.offer.settle) fun _ => .same
  · exact .same

theorem quietMarkExpiry_works (k : Station) : Works (execQuietMarkExpiry k s) s := by
  refine .act ?_
  dsimp only
  split
  · exact .moved _ (refl _).setMem.settleSend
  · exact .same

theorem staleWaitEnd_works : Works (execStaleWaitEnd s) s := by
  refine .act ?_
  split
  · rename_i e
    split
    · exact .moved _ (settleSend (setHead (refl _) (by simp [State.at, e])))
    · exact .same
  · exact .same

theorem backoffEnd_works : Works (execBackoffEnd s) s := by
  refine .act ?_
  split
  · rename_i e
    split
    · exact .moved _ (settleSend (setHead (refl _) (by simp [State.at, e])))
    · exact .same
  · exact .same

theorem catchUpDeadline_works : Works (execCatchUpDeadline s) s := by
  refine .act ?_
  split
  · exact .moved _ (finish (timeOut (b := State.batch _) (refl _)))
  · exact .same

theorem responderBackoffEnd_works : Works (execResponderBackoffEnd s) s := by
  refine .act ?_
  split
  · split
    · exact .ite (fun _ => .moved _ (refl _).offerResponse.settle) fun _ => .same
    · exact .same
  · exact .same

theorem drainComplete_works : Works (execDrainComplete s) s :=
  .act (.ite (fun _ => .now (finish (drained (b := State.batch _) ((refl s).setConf_same rfl rfl)))) fun _ => .same)

/-! ## Grants, reads, sweeps, hold -/

/-- The cell is written; from there the blocks work on. -/
theorem endWrite_internal (w : CurrentWrite) : Internal (s.writeCell w.gsn w.payload) (s.endWrite w) :=
  (refl _).freePort.setConf_same rfl rfl

theorem finishLate_internal {t : State} (w : CurrentWrite) (h : Internal s t) : Internal s (t.finishLate w) := by
  unfold State.finishLate
  split
  · refine setEntries ?_ ?_
    · unfold State.commitSlot
      split
      · rename_i i k
        exact postCommitted (h.put (Directory.held_of_fillingInfo k))
      · exact h
    · refine (removeEntry_length _ _).trans (le_of_eq ?_)
      unfold State.commitSlot State.postCommitted
      repeat' split
      all_goals simp
  · exact h

/-- R72: a late write writes its cell, then the blocks work on. -/
theorem completeLate_internal (w : CurrentWrite) : Internal (s.writeCell w.gsn w.payload) (s.completeLate w) :=
  (finishLate_internal w (endWrite_internal w)).respSettle.settle

/-- R73: an early write writes its cell, then the blocks work on. -/
theorem finishEarly_internal (w : CurrentWrite) : Internal (s.writeCell w.gsn w.payload) ((s.endWrite w).finishEarly w) := by
  have k := endWrite_internal (s := s) w
  unfold State.finishEarly
  dsimp only
  split
  · split
    · exact (k.setEntries (by rw [replaceEntry_length])).settle
    · split
      · rename_i g
        exact finish (b := State.batch _) (setEntries (k.put (Directory.held_of_holdsGap g)) (by rw [replaceEntry_length]; simp))
      · exact k.settle
  · exact k.settle

theorem commitWriteGrant_works : Works (execCommitWriteGrant s) s := by
  have tried : ∀ {t : State} (e), Internal s t → Internal s (t.tryEntry e) := fun e h => by
    unfold State.tryEntry
    split
    · exact h
    · exact h.setEntries (by rw [replaceEntry_length])
  refine .act ?_
  split
  · refine .ite (fun _ => .now (settle ?_)) fun _ => .same
    unfold State.grantWrite
    split
    · exact (tried _ (refl s)).takeGrant.setConf_same rfl rfl
    · dsimp only
      split
      · exact (refl s).giveUpGrant.setEntries (removeEntry_length _ _)
      · exact tried _ (refl s).giveUpGrant
  · exact .same

theorem replayReadGrant_works : Works (execReplayReadGrant s) s := by
  refine .act ?_
  split
  · refine .ite (fun _ => .now (settle ?_)) fun _ => .same
    unfold State.judgeReplay
    split
    · exact (refl s).takeGrant
    · exact (refl s).giveUpGrant.setResponder
    · exact (refl s).giveUpGrant.setResponder
    · exact (refl s).giveUpGrant.offerResponse
  · exact .same

theorem replayReadComplete_works : Works (execReplayReadComplete s) s := by
  refine .act ?_
  split
  · refine .now (settle ?_)
    unfold State.takeReplay
    repeat' split
    all_goals first
      | exact (refl s).freePort
      | exact (refl s).freePort.offerResponse
      | exact (refl s).freePort.setResponder
  · exact .same

theorem sweepSliceGrant_works : Works (execSweepSliceGrant s) s :=
  .act (.ite (fun _ => .now (settle ((refl s).takeGrant.setSwp_same rfl rfl))) fun _ => .same)

theorem sweepSliceComplete_works : Works (execSweepSliceComplete s) s := by
  refine .act (.ite (fun _ => .moved s.portEnds (settle (setSwp (refl _).freePort fun k => ?_))) fun _ => .same)
  have b := k.2.2.2.2.2
  have n : slicesPerPass s.straps.slice ≤ 4 ∧ 0 < slicesPerPass s.straps.slice := by
    unfold slicesPerPass; split <;> omega
  refine ⟨?_, ?_, ?_⟩
  · simp only [balanceDown]; omega
  · simp only [balanceDown]; have := b.2.1; omega
  · have := Nat.mod_lt (((s.at s.portEnds).freePort).swp.position + 1) n.2
    simp only [nextPosition]
    show (_ + 1) % slicesPerPass s.straps.slice ≤ 3
    omega

theorem intervalTimerExpiry_works : Works (execIntervalTimerExpiry s) s := by
  refine .act ?_
  dsimp only
  split
  · rename_i t _
    refine .moved t (settle (setSwp (refl _) fun k => ?_))
    have b := k.2.2.2.2.2
    unfold countExpiry
    split <;> simp only [balanceUp] <;> refine ⟨?_, ?_, b.2.2⟩ <;> have := b.1 <;> have := b.2.1 <;> omega
  · exact .same

theorem pullIn_works : Works (execPullIn s) s := by
  refine .act ?_
  split
  · exact .ite (fun _ => .moved _ (refl _).settle) fun _ => .same
  · exact .same

theorem portQuietPullIn_works : Works (execPortQuietPullIn s) s := by
  refine .act ?_
  split
  · exact .ite (fun _ => .moved _ (refl _).settle) fun _ => .same
  · exact .same

theorem holdTimerExpiry_works : Works (execHoldTimerExpiry s) s := by
  refine .act ?_
  split
  · rename_i t _
    have k := (refl (s.at t)).setSwp_same
      (v := { (s.at t).swp with holdTimer := some (t + holdSpacing (s.at t).temp.cls) }) rfl rfl
    refine .ite (fun _ => .moved t ?_) fun _ => .moved t k
    exact Internal.place (k.setSwp_same rfl rfl)
  · exact .same

theorem internalPassGrant_works : Works (execInternalPassGrant s) s :=
  .act (.ite (fun _ => .now ((refl s).takeGrant.setSwp_same rfl rfl)) fun _ => .same)

theorem internalPassComplete_works : Works (execInternalPassComplete s) s :=
  .act (.ite (fun _ => .moved _ ((refl _).freePort.setSwp_same rfl rfl)) fun _ => .same)

theorem exitPassGrant_works : Works (execExitPassGrant s) s :=
  .act (.ite (fun _ => .now (refl s).takeGrant) fun _ => .same)

theorem exitPassComplete_works : Works (execExitPassComplete s) s := by
  refine .act (.ite (fun _ => .moved s.portEnds (settle (enterListening (setSwp (refl _).freePort fun _ => ?_)))) fun _ => .same)
  exact ⟨show (-8 : Int) ≤ 0 by decide, show (0 : Int) ≤ 8 by decide, Nat.zero_le 3⟩

end Sys2Proof.Machine
end

