-- ==== Sys2Proof/Tests/Slice0.lean ====
section
/-! SUPPORT. Tests of the model: operands that are refused, values of the formats, and for each statement of the certificates a
state that meets its hypotheses, with what the command then gives. -/

set_option Elab.async false

namespace Sys2Proof.Tests

open Sys2Proof.Machine

/-! ## Operands that no event carries -/

/-- The framing of bytes as sent. -/
def sounds (n : Nat) : List FramingLevels := List.replicate n soundFraming

theorem test_ill_submit_long : Instr.wf (.submit (List.replicate 256 0)) = false := by decide +kernel
theorem test_ill_malformed_collect : Instr.wf (.malformedCommand 0xF0 []) = false := by decide
theorem test_ill_malformed_join : Instr.wf (.malformedCommand 2 []) = false := by decide
theorem test_ill_frame_length : Instr.wf (.frameEnd [0x32, 7, 1, 2, 0] (sounds 5)) = false := by decide +kernel
theorem test_ill_frame_no_length : Instr.wf (.frameEnd [0x32, 7] (sounds 2)) = false := by decide +kernel
theorem test_ill_frame_framing : Instr.wf (.frameEnd [0x32, 7, 1, 2, 0, 0] []) = false := by decide +kernel
/-- R34: two bytes FFh whose start bits read recessive hold a run of 12 bt. -/
theorem test_ill_frame_silent : Instr.wf (.frameEnd [0x32, 7, 1, 2, 0xFF, 0xFF] (sounds 4 ++ [⟨true, true⟩, ⟨true, true⟩])) =
    false := by decide +kernel
theorem test_ill_truncation_whole : Instr.wf (.frameTruncated [0x32, 7, 1, 2, 0, 0] (sounds 6)) = false := by decide +kernel
theorem test_ill_truncation_framing : Instr.wf (.frameTruncated [0x32] []) = false := by decide +kernel
theorem test_ill_truncation_silent : Instr.wf (.frameTruncated [0xFF, 0xFF] [⟨true, true⟩, ⟨true, true⟩]) = false := by
  decide +kernel
theorem test_well_frame : Instr.wf (.frameEnd [0x32, 7, 1, 2, 0, 0] (sounds 5 ++ [⟨true, false⟩])) = true := by decide +kernel
theorem test_well_truncation : Instr.wf (.frameTruncated [] []) = true ∧ Instr.wf (.frameTruncated [0xFF] [⟨true, false⟩]) = true ∧
    Instr.wf (.frameTruncated [0x83, 0xFF] (sounds 2)) = true := by decide +kernel
theorem test_well_malformed : Instr.wf (.malformedCommand 2 [0]) = true := by decide

/-! ## Formats -/

/-- R182: the check of the nine digits. -/
theorem test_check_value : frameCheck [0x31, 0x32, 0x33, 0x34, 0x35, 0x36, 0x37, 0x38, 0x39] = 0xAEE7 := by decide +kernel

/-- R45: arbitration bytes of a RECORD of station 3 and a PRESENCE of station 2. -/
theorem test_arbitration_bytes : (frameBytes 7 3 (.record 1 1 [0])).head? = some 0x83 ∧
    (frameBytes 7 2 (.presence 5 1 0 true)).head? = some 0xA2 := by decide +kernel

/-- R47: a frontier of 2^48 is sent as 0 and read as 2^48. -/
theorem test_frontier_zero : (FrameBody.found Config.gsnLimit).bytes = [0, 0, 0, 0, 0, 0] ∧
    decodeBody 2 [0, 0, 0, 0, 0, 0] = some (.found Config.gsnLimit) := by decide +kernel

theorem test_no_table_word : decodeTableWord 8 1 = none := rfl

theorem test_frame_received : ({
    bytes := frameBytes 7 3 (.gone 2 5 16), framing := [], truncated := false, own := false, readback := false } :
    ReceiveRecord).classify (some 7) 2 =
    .sound 3 (.gone 2 5 16) (frameCheck (coveredBytes 7 3 (.gone 2 5 16))) .addressedHere := by decide +kernel

theorem test_body_in_range : (FrameBody.gone 2 5 16).inRange = true ∧ (FrameBody.quiet 1000).inRange = true := by decide

theorem test_truncated_content : ({ bytes := [0x83], framing := [], truncated := true, own := false, readback := false } :
    ReceiveRecord).classify (some 7) 2 = .failure .general := by decide

theorem test_truncated_foreign : ({ bytes := [0x83, 9], framing := [], truncated := true, own := false, readback := false } :
    ReceiveRecord).classify (some 7) 2 = .foreign := by decide

/-- R50: with a framing error on the arbitration byte or with the own group byte a truncated frame is none of another group. -/
theorem test_truncated_own_group :
    ({ bytes := [0x83, 9], framing := [0], truncated := true, own := false, readback := false } :
      ReceiveRecord).classify (some 7) 2 = .failure .general ∧
    ({ bytes := [0x83, 7], framing := [], truncated := true, own := false, readback := false } :
      ReceiveRecord).classify (some 7) 2 = .failure .general := by decide

/-- R34: 12 bt of recessive line behind the bytes; where a stop bit was recessive, a dominant bit parts it from them. -/
theorem test_truncation_length : truncationLength [] [] = 13 ∧ truncationLength [0x83] (sounds 1) = 24 ∧
    truncationLength [0x83, 0xFF] [soundFraming, ⟨false, false⟩] = 33 := by decide +kernel

/-- R27: the levels of a byte, and the framing errors at a recessive start bit and a dominant stop bit. -/
theorem test_byte_levels : byteLevels 0x83 soundFraming =
      [false, true, false, false, false, false, false, true, true, true] ∧
    framingErrors [soundFraming, ⟨true, true⟩, ⟨false, false⟩, ⟨true, false⟩] = [1, 2, 3] := by decide

/-- R27, R33: the levels of a frame, the fourth byte with a dominant stop bit, end it where its length byte says. -/
theorem test_frame_from_levels :
    frameFromLevels (lineLevels [0x32, 7, 1, 9, 0, 0] (sounds 3 ++ [⟨false, false⟩]) ++ [true, true]) =
      some (.frameEnd [0x32, 7, 1, 9, 0, 0] (sounds 3 ++ [⟨false, false⟩] ++ sounds 2)) ∧
    frameFromLevels (lineLevels [0x32, 7, 1, 9, 0] []) = none := by decide +kernel

/-- R34: silence within the arbitration byte hands over no byte; within the third byte, two. -/
theorem test_truncation_from_levels :
    frameFromLevels ([false, true, false] ++ List.replicate 12 true) = some (.frameTruncated [] []) ∧
    frameFromLevels (lineLevels [0x32, 7] [] ++ [false, true] ++ List.replicate 11 true) =
      some (.frameTruncated [0x32, 7] (sounds 2)) := by decide +kernel

/-- R50 to R54: whole frames that are not sound. -/
theorem test_whole_failures :
    let f : List Byte → List Nat → ReceiveRecord := fun b l =>
      { bytes := b, framing := l, truncated := false, own := false, readback := false }
    let gone := frameBytes 7 3 (.gone 2 5 16)
    let short : List Byte := [0x53, 7, 1, 4]
    let sealed : List Byte := short ++ natBytes 2 (frameCheck short).toNat
    (f gone [5]).classify (some 7) 2 = .failure .general ∧
    (f (gone.take 12 ++ [0]) []).classify (some 7) 2 = .failure .general ∧
    (f gone []).classify (some 9) 2 = .foreign ∧ (f gone [1]).classify (some 9) 2 = .failure .general ∧
    (f sealed []).classify (some 7) 2 = .failure .addressedElsewhere ∧
    (f sealed []).classify (some 7) 4 = .failure .addressedHere := by decide +kernel

/-- R168 to R170: transactions as bits. -/
theorem test_port_transaction : portTransaction false (bitsOf [4, 0, 0, 0, 0, 0, 9] ++ [true, false]) = some (.read 9) ∧
    portTransaction false (bitsOf [0xF0, 0, 0]) = some (.collect 2) ∧ portTransaction false [true, true] = none ∧
    portTransaction true (bitsOf [2]) = none ∧ portTransaction false (bitsOf [2, 1]) = some (.malformedCommand 2 [1]) ∧
    encodeTransaction (.read 9) = some (4, [0, 0, 0, 0, 0, 9]) := by decide +kernel

/-! ## States -/

/-- The state a command leads to. -/
def go (c : Instr) (s : State) : State :=
  match exec c s with
  | .next t => t
  | .fault _ => s
  | .refused _ => s

/-- The START parameters of the tests. -/
def params : StartParams :=
  { group := 7, heartbeat := 1, retryLimit := 3, commitMode := .late, historyDepth := 10, holdAbort := true }

/-- The release of a board strapped to these numbers. -/
def releaseAs (k rate slice : Nat) : Instr :=
  .resetRelease { sid3 := k.testBit 3, sid2 := k.testBit 2, sid1 := k.testBit 1, sid0 := k.testBit 0 }
    { rate1 := rate.testBit 1, rate0 := rate.testBit 0 } { slice1 := slice.testBit 1, slice0 := slice.testBit 0 }

/-- Station 2 after its release from reset. -/
def boot : State := go (releaseAs 2 0 0) State.reset

/-- The same with parameters stored and a station state, its bus interface in a receive state. -/
def seat (st : StationState) (rx : RxState) : State :=
  { boot with
    params := some params
    mem := { boot.mem with st := st }
    bus := { boot.bus with rx := rx } }

/-- A journal of one committed record, GSN 1. -/
def journal1 : Directory :=
  { slots := [(1, .committed 1 ⟨2, 1, 3, 0x1234⟩)], window := some { low := 1, high := 1 }, frontier := 2, gapCount := 0,
    lostCount := 0 }

/-- A journal with GSN 2 in GAP between two committed records. -/
def journalGap : Directory :=
  { slots := [(1, .committed 1 ⟨2, 1, 3, 0x1234⟩), (2, .gap 2), (3, .committed 3 ⟨3, 1, 3, 0x4321⟩)],
    window := some { low := 1, high := 3 }, frontier := 4, gapCount := 1, lostCount := 0 }

/-- GSN 2 in FILLING above GSN 1. -/
def journalFill : Directory := (journal1.live (.filling 2 ⟨2, 4, 2, 0x55⟩)).dir

/-- A member on an idle bus. -/
def member : State := { seat .member .idle with dir := journal1 }

/-- A station in SYNCING with a gap. -/
def syncing : State := { seat .syncing .idle with dir := journalGap }

/-- A member whose responder waits. -/
def responding (p : ResponderPhase) : State :=
  { member with cat := { member.cat with responder := some { requester := 3, next := 1, last := 1, retries := 1, phase := p } } }

/-- An outbound entry. -/
def entry (st : OutState) : OutEntry :=
  { tag := 9, payload := [1, 2, 3], contentRetries := 0, busyRetries := 0, staleCount := 0, state := st }

/-- A member with entries in its outbound queue. -/
def queued (st : OutState) : State := { member with out := { member.out with entries := [entry st] } }

/-- A pending entry for a live record of a station. -/
def live (g : Nat) (origin : Station) (st : PendStatus) : PendEntry :=
  { gsn := g, live := true, origin := origin, tag := 4, payload := [7, 8], check := 0x55, status := st, own := false }

/-- A pending entry for a REPLAY of GSN 2. -/
def replay (st : PendStatus) : PendEntry := { live 2 3 st with live := false }

/-- A receive record at its frame start. -/
def fresh (own : Bool) : ReceiveRecord := { bytes := [], framing := [], truncated := false, own := own, readback := false }

/-- An open window, due at 500. -/
def openWin (own : Bool) (pulled : Nat) : WindowRun :=
  { opened := true, overlapping := false, own := own, readback := false, pulled := pulled, due := 500 }

/-- A member at an open window with a decision. -/
def atWindow (d : Decision) (has own : Bool) (pulled : Nat) : State :=
  { member with
    bus := { member.bus with rx := .window, windows := [openWin own pulled] }
    conf := { member.conf with decision := some ⟨d, has⟩ } }

/-! ## Reset, steps -/

theorem test_released : boot.resetHeld = false ∧ boot.straps.station = 2 ∧ boot.swp.intervalEnd = some 40000 ∧
    boot.temp.nextEval = some 10000 ∧ State.reset.resetHeld = true ∧ State.reset.arb.grant = none ∧
    State.reset.arb.waiting = [] ∧ State.reset.swp.quietSince = none := by decide +kernel

/-- R181: which pins are the most significant. -/
theorem test_strap_pins :
    strapsOf ⟨true, false, false, false⟩ ⟨true, false⟩ ⟨false, true⟩ = { station := 8, rate := 2, slice := 1 } ∧
    strapsOf ⟨false, false, false, true⟩ ⟨false, true⟩ ⟨true, false⟩ = { station := 1, rate := 1, slice := 2 } ∧
    strapsOf ⟨true, true, false, true⟩ ⟨true, true⟩ ⟨true, true⟩ = { station := 13, rate := 3, slice := 3 } := by decide

theorem test_release_again : go (releaseAs 3 1 1) boot = boot := by decide +kernel

theorem test_held : go .join State.reset = State.reset ∧ Instr.join ≠ .hardwareReset := by decide +kernel

theorem test_idle_step : boot.pending = [] ∧ (match step boot with | .next t => t.now | _ => 0) = 1 := by decide +kernel

/-- A member whose array port writes GSN 5. -/
def writing (early granted : Bool) : State :=
  { member with
    arb := { member.arb with grant := some { op := .commitWrite, rank := 3, ends := none } }
    array := [(5 * 256 + 9, 3)]
    conf := { member.conf with write := some {
      gsn := 5, payload := [7, 8], grantedEarly := granted, early := early, entryPresent := true } } }

theorem test_hardware_reset : (go .hardwareReset (writing false false)).mem.st = .unset ∧
    (writing false false).conf.write.isSome = true ∧ (go .hardwareReset { member with array := [(1289, 3)] }).array = [(1289, 3)] ∧
    member.portOp ≠ some .commitWrite := by decide +kernel

/-! ## The local port -/

theorem test_transaction_busy : (encodeTransaction .status).isSome = true ∧
    (go .status { boot with port := { boot.port with phase := .ready } }).port.sdo.head? = some 0x0A ∧
    (go .status { boot with port := { boot.port with phase := .ready } }).port.response = none := by decide +kernel

theorem test_start : boot.mem.st = .unset ∧ boot.bus.rx = .off ∧ boot.bus.windows = [] ∧ boot.filter.receive = none ∧
    boot.port.phase = .idle ∧ (go (.start 7 3 15 1 4095 1) boot).mem.st = .listening ∧
    (go (.start 7 0 1 0 0 0) boot).port.response = some (.okStart boot.straps) := by decide +kernel

theorem test_start_refused : (go (.start 7 4 15 1 4095 1) boot).port.response = some (.paramStart boot.straps) ∧
    (go (.start 7 0 1 0 0 0) member).port.response = some (.refusedState .start) := by decide +kernel

theorem test_join : (seat .detached .off).bus.steady = false ∧ (seat .detached .off).ownUnderWay = false ∧
    (go .join (seat .detached .off)).bus.rx = .syncWait := by decide +kernel

theorem test_join_finishing :
    let s := { seat .detached .window with
      bus := { (seat .detached .window).bus with windows := [openWin true 0], offTarget := some .off } }
    s.bus.steady = false ∧ s.ownUnderWay = true ∧ (go .join s).bus.offTarget = some .syncWait := by decide +kernel

theorem test_join_refused : (go .join member).port.response = some (.refusedState .join) := by decide +kernel

theorem test_submit : (go (.submit [5]) member).port.response = some (.okTag 1) ∧
    (go (.submit [5]) member).out.entries.length = 1 ∧ (go (.submit [5]) boot).port.response = some (.refusedState .submit) := by
  decide +kernel

theorem test_submit_bounds : (go (.submit []) member).port.response = some (.param 3) ∧
    (go (.submit (List.replicate 240 1)) member).port.response = some (.okTag 1) ∧
    (go (.submit (List.replicate 241 1)) member).port.response = some (.param 3) ∧
    (go (.submit [1]) { member with out := { member.out with entries := List.replicate 8 (entry .waiting) } }).port.response =
      some .full := by decide +kernel

theorem test_read : (go (.read 1) member).port.phase = .working ∧ (go (.read 0) member).port.response = some (.param 4) ∧
    (go (.read 1) boot).port.response = some (.refusedState .read) := by decide +kernel

theorem test_status : member.port.phase = .idle ∧ member.resetHeld = false ∧
    (go .status member).port.response = some (.status member.statusRecord) := by decide +kernel

theorem test_peers : (match (go .peers member).port.response with | some (.peers l) => l.length | _ => 0) = 16 := by
  decide +kernel

/-- A member with a notice and two lost ones. -/
def noticed : State := { member with port := { member.port with notices := [.state .member], lost := 2 } }

theorem test_notice : (go .notice noticed).port.response = some (.notice 2 (.state .member)) ∧
    (go .notice noticed).port.lost = 0 ∧ (go .notice member).port.response = some (.empty 0) := by decide +kernel

theorem test_leave_hold : member.sel.inFlight = none ∧ member.bus.rx ≠ .preWindow ∧ member.bus.rx ≠ .window ∧
    (go .leave member).mem.st = .leaving ∧ (go .hold member).sel.membership = some (.leave .hold) ∧
    (go .leave { member with mem := { member.mem with faultFlag := true } }).sel.membership = some (.leave .faultExit) := by
  decide +kernel

theorem test_leave_outside : (go .leave (seat .fault .stopped)).mem.st = .detached ∧
    (seat .fault .stopped).ownUnderWay = false ∧ (go .hold (seat .fault .stopped)).port.response = some (.refusedState .hold) ∧
    (go .leave (seat .held .off)).port.response = some (.refusedState .leave) := by decide +kernel

/-- A member with a LEAVE that waits for the open window of a frame of another group. -/
def deferring : State :=
  let s := atWindow .noObjection false false 0
  go .leave { s with
    filter := { receive := none, window := some .foreign }, conf := { s.conf with decision := none } }

theorem test_deferred : deferring.port.phase = .working ∧ deferring.port.slot = some .leave ∧ deferring.mem.departWait = 1 ∧
    go .deferredCommandTaken deferring = deferring ∧ go .deferredCommandTaken member = member ∧
    (go (.windowEnd 0) deferring).mem.departWait = 0 ∧
    (go .deferredCommandTaken (go (.windowEnd 0) deferring)).mem.st = .leaving := by decide +kernel

/-- R116: a frame that starts early keeps the LEAVE waiting for the window that was open when it came, and no longer. -/
theorem test_deferred_early_start : (go .frameStart deferring).bus.rx = .frame ∧
    (go .deferredCommandTaken (go .frameStart deferring)).mem.st = .member ∧
    (go .deferredCommandTaken (go (.windowEnd 0) (go .frameStart deferring))).mem.st = .leaving := by decide +kernel

/-- The end of an overlapping window counts too. -/
theorem test_deferred_overlapping :
    let s := { deferring with bus := { deferring.bus with windows := [{ openWin false 0 with overlapping := true }] } }
    (go (.windowEnd 0) s).mem.departWait = 0 := by decide +kernel

/-- The end of the own frame's window, and of a judged peer's, counts like any other; with a FAULT the wait is over. -/
theorem test_deferred_windows :
    let ends := fun own cls budget =>
      let s := atWindow cls false own 0
      (go (.windowEnd 1) { s with
        mem := { s.mem with departWait := 2 }, conf := { s.conf with budget := budget } }).mem
    (ends true .noObjection 14).departWait = 1 ∧ (ends false (.object .content) 14).departWait = 1 ∧
    (ends false (.object .content) 15).departWait = 0 ∧ (ends false (.object .content) 15).st = .fault := by decide +kernel

/-- A station with a departure command in its slot. -/
def slotted (s : State) (c : SlotCommand) : State := { s with port := { s.port with phase := .working, slot := some c } }

theorem test_deferred_taken : (go .deferredCommandTaken (slotted member .leave)).mem.st = .leaving ∧
    (go .deferredCommandTaken (slotted member .hold)).sel.membership = some (.leave .hold) ∧
    (go .deferredCommandTaken (slotted (seat .fault .stopped) .leave)).mem.st = .detached ∧
    (go .deferredCommandTaken (slotted (seat .fault .stopped) .hold)).port.response = some (.refusedState .hold) := by
  decide +kernel

/-- A station on hold whose engine runs an internal pass. -/
def passing : State :=
  { seat .held .off with
    arb := { boot.arb with grant := some { op := .internalPass, rank := 8, ends := some 3000 } }
    swp := { boot.swp with holdTimer := some 40000, passState := some .running, intervalEnd := none } }

/-- R164: a READ that comes in RESUMING is not granted before the exit pass. -/
theorem test_read_after_exit :
    let s := go (.read 1) { go .release { passing with arb := { passing.arb with grant := none } } with port := boot.port }
    s.port.phase = .working ∧ s.mem.st = .resuming ∧ s.grantable .localPort = false ∧ s.grantable .sweep = true := by
  decide +kernel

theorem test_release : passing.portOp = some .internalPass ∧ passing.holdAbort = true ∧
    (go .release passing).mem.st = .resuming ∧ (go .release passing).arb.grant = none ∧
    (go .release (seat .held .off)).mem.st = .resuming ∧ (seat .held .off).portOp ≠ some .internalPass ∧
    (go .release member).port.response = some (.refusedState .release) := by decide +kernel

theorem test_malformed : (go (.malformedCommand 99 [1]) member).port.response = some (.param 99) ∧
    (go (.malformedCommand 1 [1]) member).port.response = some (.paramStart member.straps) := by decide +kernel

/-- A member whose answer waits. -/
def answered : State := { member with port := { member.port with phase := .ready, response := some (.ok .join) } }

theorem test_collect : (Answer.ok .join).bytes.length = 4 ∧ (go (.collect 4) answered).port.phase = .idle ∧
    (go (.collect 3) answered).port.phase = .ready ∧ (go (.collect 4) answered).port.sdo = [0x0A, 1, 2, 0, 0] ∧
    (go (.collect 2) member).port.sdo = [0x00, 0, 0] := by decide +kernel

/-! ## The record bus -/

theorem test_waits_end : (go .syncWaitEnd (seat .listening .syncWait)).bus.rx = .idle ∧
    (go .syncWaitEnd (seat .listening .syncWait)).now = 400 ∧ (go .faultWaitEnd (seat .member .faultWait)).bus.rx = .idle ∧
    (go .separationEnd (seat .member .separation)).bus.rx = .idle ∧
    (go .separationEnd { seat .member .separation with
      bus := { (seat .member .separation).bus with dataFault := true } }).bus.rx = .faultWait := by decide +kernel

theorem test_frame_start : member.bus.offTarget = none ∧ member.bus.dataFault = false ∧
    (go .frameStart member).bus.rx = .frame ∧ (go .frameStart (seat .member .separation)).bus.rx = .frame ∧
    (go .frameStart { seat .listening .syncWait with now := 9 }).bus.recessiveSince = 19 := by decide +kernel

/-- A member whose RECORD, or another frame, is chosen. -/
def chosen (who : Sender) : State :=
  { queued .contending with
    sel := { member.sel with record := true, choice := some who, responder := some (.gone 3 5 1) } }

theorem test_own_start : (chosen .outbound).bus.inhibit = false ∧ (chosen .outbound).sel.inFlight = none ∧
    (go .ownFrameStart (chosen .outbound)).sel.inFlight = some {
      sender := .outbound, body := .record 2 9 [1, 2, 3], discard := false } ∧
    (go .ownFrameStart (chosen .responder)).sel.inFlight = some {
      sender := .responder, body := .gone 3 5 1, discard := false } ∧
    kindAllowed (chosen .responder).mem.st (.gone 3 5 1) = true := by decide +kernel

/-- The model's choice (notes/assumptions/53.md). -/
theorem test_frame_start_in_fault :
    let s := { seat .member .separation with bus := { (seat .member .separation).bus with dataFault := true } }
    go .frameStart s = s := by decide +kernel

/-- A member that sends a frame. -/
def sending (who : Sender) (b : FrameBody) : State :=
  { queued (.inFlight 2) with
    bus := { member.bus with rx := .frame }
    filter := { receive := some (fresh true), window := none }
    sel := { member.sel with inFlight := some { sender := who, body := b, discard := false } } }

theorem test_arbitration_lost :
    ((go .arbitrationLost (sending .outbound (.record 2 9 [1, 2, 3]))).out.entries.map OutEntry.atRest) = [entry .waiting] ∧
    (go .arbitrationLost (sending .responder (.gone 3 5 1))).sel.responder = some (.gone 3 5 1) ∧
    (sending .responder (.gone 3 5 1)).mem.leave = none := by decide +kernel

/-- R98, R150, R125, R107: what becomes of a lost QUIET, FETCH and PRESENCE. -/
theorem test_other_frames_lost :
    let quiet := fun b => (go .arbitrationLost { sending .sweep (.quiet 320) with
      swp := { member.swp with balance := b } }).sel.sweep
    quiet 6 = some (.quiet 320) ∧ quiet 7 = some (.quiet 320) ∧ quiet 5 = none ∧ quiet 8 = none ∧
    (go .arbitrationLost (sending .membership (.presence 9 9 0 false))).sel.membership = some (.presence 9 9 0 false) ∧
    (go .arbitrationLost { sending .requester (.fetch 3 2 1) with
      mem := { member.mem with st := .leaving } }).sel.requester = some (.fetch 3 2 1) := by decide +kernel

/-- R98, R107: a lost PRESENCE stands unchanged through an event, and is made anew when one of its values changes. -/
theorem test_presence_kept :
    let lost := go .arbitrationLost (sending .membership (.presence 9 9 0 false))
    let later := go .intervalTimerExpiry { lost with swp := { lost.swp with intervalEnd := some 5 } }
    later.sel.membership = some (.presence 9 9 0 false) ∧ later.now = 5 ∧
    { lost with dir := (lost.dir.presence 4).dir }.settle.sel.membership = some (.presence 4 1 0 true) ∧
    { lost with dir := (lost.dir.presence 4).dir }.settle.sel.presenceKept = none := by decide +kernel

/-- A station in SYNCING that sends its FETCH of GSN 2 to peer 3. -/
def sendingFetch (rx : RxState) : State :=
  { sending .requester (.fetch 3 2 1) with
    dir := journalGap
    bus := { member.bus with rx := rx }
    mem := { (member.mem.setPeer 3 { Peer.reset with status := .active, heardFrontier := some 4, heardLow := some 1 }) with
      st := .syncing }
    cat := { requester := some { first := 2, count := 1, phase := .offered 3, received := [], attempt := 1, tried := [],
                                 timeoutHeld := false, selectOwed := false }, responder := none } }

theorem test_fetch_lost : (3 : Station) ∈ (sendingFetch .frame).candidates 2 ∧
    (go .arbitrationLost (sendingFetch .frame)).sel.requester = some (.fetch 3 2 1) ∧
    (go .arbitrationLost (sendingFetch .frame)).mem.departWait = 0 := by decide +kernel

/-- A leaving station whose LEAVE is in flight and whose leave timer has expired. -/
def expired : State :=
  { sending .membership (.leave .stop) with
    mem := { member.mem with st := .leaving, leave := some { reason := .stop, voided := 0, timer := none, expired := true } } }

theorem test_expired_leave_lost : (go .arbitrationLost expired).conf.drain = true ∧
    (go .arbitrationLost expired).sel.membership = none := by decide +kernel

theorem test_readback : (match (go .readbackFailure (sending .outbound (.record 2 9 [1, 2, 3]))).filter.receive with
    | some r => r.readback
    | none => false) = true := by decide +kernel

/-- A member that receives a frame. -/
def receiving : State :=
  { member with bus := { member.bus with rx := .frame }, filter := { receive := some (fresh false), window := none } }

theorem test_duplicate : receiving.onBus = true ∧ (go .duplicateStation receiving).mem.st = .fault ∧
    (go .duplicateStation receiving).bus.rx = .stopped ∧
    (go .duplicateStation receiving).port.notices = [.duplicateStation, .state .fault] := by decide +kernel

/-- The end of a frame that is received as it was sent. -/
def heard (bytes : List Byte) : Instr := .frameEnd bytes (sounds bytes.length)

/-- R27, R51: a dominant stop bit makes a whole frame a content failure. -/
theorem test_frame_end_framing :
    (go (.frameEnd (frameBytes 7 3 (.record 2 1 [4])) (sounds 13 ++ [⟨false, false⟩])) receiving).conf.decision =
      some ⟨.object .content, false⟩ ∧ (heard (frameBytes 7 3 (.record 2 1 [4]))).WellFormed := by decide +kernel

theorem test_frame_end : (receiving.ended (fresh false) (frameBytes 7 3 (.record 2 1 [4])) [] false).carriesNumber 2 = false ∧
    (go (heard (frameBytes 7 3 (.record 2 1 [4]))) receiving).conf.entries.length = 1 ∧
    (go (heard (frameBytes 7 3 (.record 1 1 [4]))) receiving).conf.decision = some ⟨.object .stale, false⟩ ∧
    (go (heard (frameBytes 8 3 (.record 1 1 [4]))) receiving).conf.decision = none := by decide +kernel

theorem test_frame_end_full :
    let s := { receiving with conf := { receiving.conf with entries := List.replicate 4 (live 2 3 .confirmed) } }
    (go (heard (frameBytes 7 3 (.record 2 1 [4]))) s).conf.decision = some ⟨.object .full, false⟩ ∧
    (go (heard (frameBytes 7 3 (.replay 2 2 3 1 [4]))) s).conf.decision = some ⟨.noObjection, false⟩ ∧
    (go (heard (frameBytes 7 3 (.replay 2 9 3 1 [4]))) s).conf.decision = some ⟨.object .full, false⟩ := by
  decide +kernel

theorem test_frame_truncated_end : (go (.frameTruncated [0x83] (sounds 1)) receiving).now = 240 ∧
    (go (.frameTruncated [] []) receiving).now = 130 := by decide +kernel

theorem test_frame_truncated : (go (.frameTruncated [0x83] (sounds 1)) receiving).conf.decision = some ⟨.object .content, false⟩ ∧
    (go (.frameTruncated [0x83] (sounds 1)) { receiving with mem := { receiving.mem with st := .listening } }).conf.decision = none := by
  decide +kernel

theorem test_frame_overlapping :
    let s := { receiving with bus := { receiving.bus with windows := [openWin false 0] } }
    (go (.frameTruncated [0x83] (sounds 1)) s).bus.windows.length = 2 ∧ s.bus.windows ≠ [] := by decide +kernel

/-- A member that awaits a window in which it pulls CONTENT. -/
def awaiting : State :=
  { atWindow (.object .content) false false 4 with
    bus := { member.bus with rx := .preWindow, windows := [{ openWin false 4 with opened := false }] } }

theorem test_window_open : (go .windowOpen awaiting).bus.rx = .window ∧
    (go .windowOpen awaiting).bus.pull = some { cls := .content, ends := 540 } ∧
    (go .objectionPullEnd (go .windowOpen awaiting)).bus.pull = none := by decide +kernel

/-- A member whose pending window holds a RECORD that awaits its window. -/
def holding : State :=
  { atWindow .noObjection true false 0 with
    filter := { receive := none, window := some (.sound 3 (.record 5 4 [7, 8]) 0x55 .general) }
    conf := { member.conf with
      decision := some ⟨.noObjection, true⟩, entries := [live 5 3 (.awaitingWindow false)], budget := 15 } }

theorem test_window_confirms : holding.conf.entries.find? (fun x => !x.isConfirmed) = some (live 5 3 (.awaitingWindow false)) ∧
    (go (.windowEnd 0) holding).dir.frontier = 6 ∧ (go (.windowEnd 0) holding).dir.held 5 = some (.filling 5 ⟨3, 4, 2, 0x55⟩) ∧
    (go (.windowEnd 0) holding).dir.held 4 = some (.gap 4) ∧ (go (.windowEnd 0) holding).mem.st = .syncing := by
  decide +kernel

/-- A member whose pending window holds a REPLAY of GSN 2 that awaits its window, over a journal. -/
def replaying (st : PendStatus) (d : Directory) : State :=
  { holding with
    dir := d
    mem := { holding.mem with st := .syncing }
    filter := { receive := none, window := some (.sound 3 (.replay 2 2 3 4 [7, 8]) 0x55 .addressedHere) }
    conf := { holding.conf with entries := [replay st], budget := 3 } }

/-- R14, R18: a confirmed REPLAY fills a gap, is declined by any other slot, and commits a TENTATIVE one. -/
theorem test_replay_confirmed :
    let early := replaying .writtenEarly (journalGap.put (.tentative 2 ⟨3, 4, 2, 0x55⟩))
    (go (.windowEnd 0) (replaying (.awaitingWindow false) journalGap)).dir.held 2 = some (.filling 2 ⟨3, 4, 2, 0x55⟩) ∧
    (go (.windowEnd 0) (replaying (.awaitingWindow false) journalGap)).mem.st = .member ∧
    (go (.windowEnd 0) (replaying (.awaitingWindow false) journalFill)).conf.entries = [] ∧
    (go (.windowEnd 0) early).dir.held 2 = some (.committed 2 ⟨3, 4, 2, 0x55⟩) ∧
    (go (.windowEnd 0) early).conf.entries = [] := by decide +kernel

/-- R8, R17: a live record into an empty window, and one that was written early. -/
theorem test_live_confirmed :
    let early := { holding with conf := { holding.conf with entries := [live 5 3 .writtenEarly] } }
    (go (.windowEnd 0) { holding with dir := { Directory.reset with frontier := 3 } }).dir.window =
      some { low := 5, high := 5 } ∧
    (go (.windowEnd 0) early).dir.held 5 = some (.committed 5 ⟨3, 4, 2, 0x55⟩) ∧
    (go (.windowEnd 0) early).conf.entries = [] := by decide +kernel

/-- R7, R18: the own RECORD, written early, is COMMITTED at its window's end; the GSNs passed over are opened. -/
theorem test_own_confirmed :
    let s := { holding with
      bus := { holding.bus with windows := [openWin true 0] }
      sel := { holding.sel with inFlight := some { sender := .outbound, body := .record 5 4 [7, 8], discard := false } }
      filter := { receive := none, window := some (.sound 2 (.record 5 4 [7, 8]) 0x55 .general) }
      conf := { holding.conf with entries := [{ live 5 2 .writtenEarly with own := true }] } }
    (go (.windowEnd 0) s).port.notices = [.gapOpened 2 3, .committed 4 5, .state .syncing] ∧
    (go (.windowEnd 0) s).dir.frontier = 6 ∧ (go (.windowEnd 0) s).sel.inFlight = none ∧
    (go (.windowEnd 0) s).dir.held 5 = some (.committed 5 ⟨2, 4, 2, 0x55⟩) := by decide +kernel

/-- A journal up to GSN 4097 whose lowest slot, GSN 2, is in GAP (only this slot is listed). -/
def journalFull : Directory :=
  { slots := [(2, .gap 2)], window := some { low := 2, high := 4097 }, frontier := 4098, gapCount := 1, lostCount := 0 }

/-- A requester context over these GSNs that awaits answers of peer 3, after some attempts. -/
def context (first count : Nat) (received : List Nat) (attempt : Nat) : RequesterCtx :=
  { first := first, count := count, phase := .awaiting 3 [] (some 50), received := received, attempt := attempt, tried := [],
    timeoutHeld := false, selectOwed := false }

/-- R20, R132, R133: a gap that falls out of the window is LOST, leaves the context, and the context reports what it received. -/
theorem test_retired :
    let s := { holding with
      dir := journalFull
      mem := { holding.mem with st := .syncing }
      filter := { receive := none, window := some (.sound 3 (.record 4099 4 [7, 8]) 0x55 .general) }
      cat := { requester := some (context 2 1 [5, 6, 9] 1), responder := none }
      conf := { holding.conf with entries := [live 4099 3 (.awaitingWindow false)] } }
    (go (.windowEnd 0) s).port.notices =
      [.lost 2 1, .gapOpened 4098 1, .peerChange 3 .active, .gapFilled 5 2, .gapFilled 9 1] ∧
    (go (.windowEnd 0) s).dir.window = some { low := 4, high := 4099 } ∧
    (go (.windowEnd 0) s).cat.requester.map (fun c => (c.first, c.count, c.received)) = some (4098, 1, []) := by decide +kernel

/-- R127, R133: a fill without a context, and the fill that ends one. -/
theorem test_fill_reported :
    let s := replaying (.awaitingWindow false) journalGap
    let t := { s with cat := { requester := some (context 2 1 [1] 1), responder := none } }
    (go (.windowEnd 0) s).port.notices = [.peerChange 3 .active, .gapFilled 2 1, .state .member] ∧
    (go (.windowEnd 0) t).port.notices = [.peerChange 3 .active, .gapFilled 1 2, .state .member] ∧
    (go (.windowEnd 0) t).cat.requester = none := by decide +kernel

/-- R18, R69: a voided REPLAY gives its TENTATIVE slot back, and a current early write loses its entry. -/
theorem test_voided_early :
    let early := replaying .writtenEarly (journalGap.put (.tentative 2 ⟨3, 4, 2, 0x55⟩))
    let current := { holding with conf := { holding.conf with write := some {
      gsn := 5, payload := [7, 8], grantedEarly := true, early := true, entryPresent := true } } }
    early.dir.gapCount = 0 ∧ (go (.windowEnd 1) early).dir.held 2 = some (.gap 2) ∧
    (go (.windowEnd 1) early).dir.gapCount = 1 ∧ (go (.windowEnd 1) early).conf.entries = [] ∧
    (go (.windowEnd 1) current).conf.write.map CurrentWrite.entryPresent = some false := by decide +kernel

/-- A station at the window of a confirmed frame of peer 3. -/
def hearing (st : StationState) (b : FrameBody) : State :=
  { atWindow .noObjection false false 0 with
    mem := { (member.mem.setPeer 3 { Peer.reset with status := .silent, missed := 3, heardLow := some 1 }) with
      st := st, listenTimer := some 900 }
    conf := { member.conf with decision := if st = .member then some ⟨.noObjection, false⟩ else none }
    filter := { receive := none, window := some (.sound 3 b 0x55 .general) } }

/-- R111, R113, R114: what a confirmed frame makes of its peer's entry. -/
theorem test_peer_heard :
    let peer := fun b => (go (.windowEnd 0) (hearing .member b)).mem.peer 3
    peer (.quiet 320) = { Peer.reset with status := .active, heard := true, heardLow := some 1, quiet := some 3700 } ∧
    peer (.join 4) = { Peer.reset with status := .active, heard := true, heardRetained := some 4 } ∧
    (peer (.leave .hold)).status = .held ∧ (peer (.leave .stop)).status = .left ∧
    (peer (.presence 2 0 0x1234 false)).heardLow = none ∧
    (go (.windowEnd 0) (hearing .member (.leave .stop))).port.notices = [.peerChange 3 .left] := by decide +kernel

/-- R108: a check that differs, one that agrees, and one of 0. -/
theorem test_divergence :
    let after := fun c => go (.windowEnd 0) (hearing .member (.presence 2 1 c true))
    ((after 0x9999).mem.peer 3).divergence = some 1 ∧ (after 0x9999).mem.faultFlag = true ∧
    (after 0x9999).port.notices = [.peerChange 3 .active, .divergence 3 1] ∧
    ((after 0x1234).mem.peer 3).divergence = none ∧ ((after 0).mem.peer 3).divergence = none ∧
    (after 0).mem.faultFlag = false := by decide +kernel

/-- R101, R103, R105: a listener that hears a frame with a frontier, and one without. -/
theorem test_join_learning :
    let after := fun st b => go (.windowEnd 0) (hearing st b)
    (after .listening (.presence 9 3 0 true)).mem.learned = some 9 ∧
    (after .founding (.found 4)).dir.frontier = 4 ∧ (after .founding (.found 4)).mem.st = .joining ∧
    (after .joining (.record 5 1 [1])).sel.membership = some (.join 1) ∧
    (after .listening (.quiet 320)).mem.joinWait = some 300500 ∧ (after .listening (.quiet 320)).mem.listenTimer = none ∧
    (after .joining (.quiet 320)).mem.joinWait = none := by decide +kernel

/-- R10, R20: the notices of a PRESENCE above the frontier, and of one that raises the low. -/
theorem test_presence_opens :
    let after := fun d p => (go (.windowEnd 0) { hearing .member (.presence p 1 0 true) with dir := d }).port.notices
    after journal1 4 = [.peerChange 3 .active, .gapOpened 2 2, .state .syncing] ∧
    after journalFull 4099 = [.peerChange 3 .active, .lost 2 1, .gapOpened 4098 1, .state .syncing] := by decide +kernel

/-- R12, R13, R20: the notices of a joiner that learns a frontier below, at and above its own journal. -/
theorem test_learning_notices :
    let after := fun d b => (go (.windowEnd 0) { hearing .joining b with dir := d }).port.notices
    after journalGap (.found 3) = [.peerChange 3 .active, .historyDiscarded 1 3, .gapOpened 1 2] ∧
    after journalGap (.found 4) = [.peerChange 3 .active] ∧
    after journalGap (.found 6) = [.peerChange 3 .active, .gapOpened 4 2] ∧
    after Directory.reset (.found 4) = [.peerChange 3 .active, .gapOpened 1 3] ∧
    after journalFull (.found 4099) = [.peerChange 3 .active, .lost 2 1, .gapOpened 4098 1] := by decide +kernel

/-- R134: a FETCH to this station, of a record that is held and of some that are not. -/
theorem test_fetch_heard :
    let after := fun g n => go (.windowEnd 0) (hearing .member (.fetch 2 g n))
    (after 1 2).cat.responder = some { requester := 3, next := 1, last := 2, retries := 0, phase := .reading none } ∧
    (after 1 2).arb.responder.isSome = true ∧ (after 2 3).sel.responder = some (.gone 3 2 3) ∧
    (go (.windowEnd 0) { hearing .member (.fetch 2 1 1) with
      cat := (responding (.offered (.gone 4 1 1))).cat }).cat = (responding (.offered (.gone 4 1 1))).cat := by decide +kernel

theorem test_window_voids : (go (.windowEnd 1) holding).conf.entries = [] ∧ (go (.windowEnd 1) holding).conf.budget = 15 ∧
    (go (.windowEnd 33) holding).bus.objFault = true := by decide +kernel

theorem test_budget_fault :
    let s := { atWindow (.object .content) false false 4 with
      conf := { member.conf with decision := some ⟨.object .content, false⟩, budget := 15 } }
    (go (.windowEnd 0) s).mem.st = .fault ∧ (go (.windowEnd 0) s).bus.rx = .stopped ∧
    (go (.windowEnd 0) (atWindow (.object .content) false false 4)).conf.budget = 1 := by decide +kernel

/-- A member at the window of its own RECORD. -/
def ownWindow : State :=
  { sending .outbound (.record 2 9 [1, 2, 3]) with
    filter := { receive := none, window := none }
    bus := { member.bus with rx := .window, windows := [openWin true 0] } }

theorem test_own_record : (go (.windowEnd 0) ownWindow).out.entries = [] ∧
    ((go (.windowEnd 8) ownWindow).out.entries.map OutEntry.contentRetries) = [1] ∧
    ((go (.windowEnd 18) ownWindow).out.entries.map OutEntry.state) = [.staleWait 200500] ∧
    ((go (.windowEnd 19) ownWindow).out.entries.map OutEntry.state) = [.backoff 2420] := by decide +kernel

/-- R89 to R93: the notice of a drop. -/
theorem test_own_record_dropped :
    let s := { ownWindow with out := { ownWindow.out with entries := [{ entry (.inFlight 2) with contentRetries := 2 }] } }
    (go (.windowEnd 8) s).port.notices = [.dropped 9 .retryLimit] ∧ (go (.windowEnd 8) s).out.entries = [] ∧
    (go (.windowEnd 8) ownWindow).port.notices = [] ∧
    (go (.windowEnd 8) { s with dir := { journal1 with frontier := 2 ^ 48 }, out := { s.out with
      entries := s.out.entries ++ [entry .waiting] } }).port.notices =
        [.dropped 9 .retryLimit, .dropped 9 .numbersSpent] := by decide +kernel

/-- A station at the window of its own frame. -/
def ownAt (st : StationState) (who : Sender) (b : FrameBody) : State :=
  { ownWindow with
    mem := { member.mem with st := st, presence := some 9000 }
    out := member.out
    sel := { member.sel with inFlight := some { sender := who, body := b, discard := false } } }

/-- R147, R150: the own QUIET. -/
theorem test_own_quiet :
    let s := { ownAt .member .sweep (.quiet 320) with swp := { member.swp with balance := 6 } }
    (go (.windowEnd 0) s).swp.licence = true ∧ (go (.windowEnd 0) s).sel.sweep = none ∧
    (go (.windowEnd 0) s).arb.sweep.map Request.rank = some 6 ∧
    (go (.windowEnd 1) s).swp.licence = false ∧ (go (.windowEnd 1) s).sel.sweep = some (.quiet 320) := by decide +kernel

/-- R102, R104: the own FOUND and JOIN. -/
theorem test_own_found_join :
    let draining := fun b => { ownAt .joining .membership (.join 1) with conf := { member.conf with drain := b } }
    (go (.windowEnd 0) (ownAt .founding .membership (.found 2))).mem.st = .member ∧
    (go (.windowEnd 0) (ownAt .founding .membership (.found 2))).mem.presence = some 100500 ∧
    (go (.windowEnd 1) (ownAt .founding .membership (.found 2))).sel.membership = some (.found 2) ∧
    (go (.windowEnd 0) (draining false)).mem.st = .member ∧ (go (.windowEnd 0) (draining true)).mem.joinOwed = true ∧
    (go (.windowEnd 1) (draining false)).sel.membership = some (.join 1) := by decide +kernel

/-- R11, R121: the own FOUND gives its gaps up; the own JOIN of a station with a gap forms a context and asks a peer. -/
theorem test_own_found_join_gaps :
    let peer := { Peer.reset with status := .active, heardFrontier := some 4, heardLow := some 1 }
    let join := ownAt .joining .membership (.join 3)
    let s := { join with dir := journalGap, mem := join.mem.setPeer 4 peer }
    (go (.windowEnd 0) { ownAt .founding .membership (.found 4) with dir := journalGap }).port.notices =
      [.lost 2 1, .state .member] ∧
    (go (.windowEnd 0) s).mem.st = .syncing ∧ (go (.windowEnd 0) s).sel.requester = some (.fetch 4 2 1) ∧
    s.cat.requester = none ∧ s.conf.drain = false ∧ s.dir.gapCount = 1 := by decide +kernel

/-- R107: an own frame confirmed restarts the presence timer; a voided PRESENCE is offered with the values as they stand. -/
theorem test_own_presence :
    (go (.windowEnd 0) (ownAt .member .membership (.presence 9 9 0 true))).mem.presence = some 100500 ∧
    (go (.windowEnd 0) (ownAt .member .membership (.presence 9 9 0 true))).sel.membership = none ∧
    (go (.windowEnd 1) (ownAt .member .membership (.presence 9 9 0 true))).sel.membership =
      some (.presence 2 1 0x1234 true) ∧
    (go (.windowEnd 1) (ownAt .member .membership (.presence 9 9 0 true))).mem.presence = some 9000 := by decide +kernel

/-- R107: a PRESENCE with a readback failure is offered again though nobody objects. -/
theorem test_own_presence_readback :
    let s := { ownAt .member .membership (.presence 9 9 0 true) with
      bus := { member.bus with rx := .window, windows := [{ openWin true 0 with readback := true }] } }
    (go (.windowEnd 0) s).sel.membership = some (.presence 2 1 0x1234 true) ∧
    (go (.windowEnd 0) s).mem.presence = some 100500 := by decide +kernel

/-- A leaving station at the window of its LEAVE. -/
def leaveWindow (voided : Nat) (expired : Bool) : State :=
  let s := ownAt .leaving .membership (.leave .stop)
  { s with mem := { s.mem with leave := some { reason := .stop, voided := voided, timer := none, expired := expired } } }

/-- R117: the own LEAVE. -/
theorem test_own_leave :
    (go (.windowEnd 0) (leaveWindow 0 false)).conf.drain = true ∧
    (go (.windowEnd 4) (leaveWindow 1 false)).sel.membership = some (.leave .stop) ∧
    (go (.windowEnd 4) (leaveWindow 1 false)).mem.leave.map LeaveRecord.voided = some 2 ∧
    (go (.windowEnd 4) (leaveWindow 2 false)).conf.drain = true ∧
    (go (.windowEnd 4) (leaveWindow 2 false)).mem.leave.map LeaveRecord.voided = some 3 ∧
    (go (.windowEnd 4) (leaveWindow 0 true)).conf.drain = true := by decide +kernel

/-- R125: the own FETCH. -/
theorem test_own_fetch :
    let s := { sendingFetch .window with
      filter := { receive := none, window := none }
      out := member.out
      bus := { member.bus with rx := .window, windows := [openWin true 0] } }
    ((go (.windowEnd 0) s).cat.requester.map RequesterCtx.phase) = some (.awaiting 3 [] (some 100500)) ∧
    (go (.windowEnd 1) s).sel.requester = some (.fetch 3 2 1) := by decide +kernel

/-- A member at the window of its answer, after some retries. -/
def answering (retries : Nat) : State :=
  { ownAt .member .responder (.gone 3 5 2) with
    cat := { requester := none, responder := some {
      requester := 3, next := 5, last := 8, retries := retries, phase := .offered (.gone 3 5 2) } } }

/-- R137: the own REPLAY or GONE. -/
theorem test_own_answer :
    ((go (.windowEnd 0) (answering 2)).cat.responder.map fun r => (r.next, r.retries)) = some (7, 0) ∧
    ((go (.windowEnd 1) (answering 1)).cat.responder.map ResponderCtx.phase) = some (.offered (.gone 3 5 2)) ∧
    (go (.windowEnd 1) (answering 1)).sel.responder = some (.gone 3 5 2) ∧
    ((go (.windowEnd 19) (answering 1)).cat.responder.map ResponderCtx.phase) = some (.backoff (.gone 3 5 2) 2420) ∧
    (go (.windowEnd 1) (answering 2)).cat.responder = none ∧
    (let s := answering 1
     (go (.windowEnd 0) { s with cat := { s.cat with
      responder := s.cat.responder.map fun r => { r with last := 6 } } }).cat.responder) = none := by decide +kernel

/-- A station in SYNCING that awaits answers for GSNs 2 and 4 from peer 3, at the window of a frame of that peer. -/
def awaitingAnswers (b : FrameBody) (sc : Scope) (e : List PendEntry) : State :=
  { replaying (.awaitingWindow false) (journalGap.live (.committed 6 ⟨3, 9, 3, 0⟩)).dir with
    filter := { receive := none, window := some (.sound 3 b 0x55 sc) }
    conf := { member.conf with decision := some ⟨.noObjection, !e.isEmpty⟩, entries := e }
    cat := { requester := some { first := 2, count := 4, phase := .awaiting 3 [] (some 50), received := [], attempt := 1,
                                 tried := [], timeoutHeld := false, selectOwed := false }, responder := none } }

/-- R127, R128: a REPLAY and a GONE of the responder. -/
theorem test_answers_heard :
    ((go (.windowEnd 0) (awaitingAnswers (.replay 2 2 3 4 [7, 8]) .addressedHere [replay (.awaitingWindow false)])).cat.requester.map
      fun c => (c.phase, c.received)) = some (.awaiting 3 [2] (some 100500), [2]) ∧
    ((go (.windowEnd 0) (awaitingAnswers (.gone 2 4 9) .addressedHere [])).cat.requester.map RequesterCtx.phase) =
      some (.awaiting 3 [4, 5] (some 100500)) := by decide +kernel

/-- R118, R42, R112: a FAULT while the window of an own frame runs finishes it first; the tick stops at its end. -/
theorem test_duplicate_while_own_window :
    let s := { receiving with
      bus := { receiving.bus with windows := [openWin true 0] }, mem := { receiving.mem with tick := some 700 } }
    let t := go .duplicateStation s
    t.mem.st = .fault ∧ t.bus.rx = .window ∧ t.bus.offTarget = some .stopped ∧ t.mem.tick = some 700 ∧
    (go (.windowEnd 0) t).bus.rx = .stopped ∧ (go (.windowEnd 0) t).mem.tick = none ∧
    (go (.windowEnd 0) t).filter = { receive := none, window := none } := by decide +kernel

/-- R40: FAULT_WAIT leaves the watch of IDLE as it stood. -/
theorem test_watch_after_fault_wait :
    let s := fun watch => { seat .member .faultWait with bus := { (seat .member .faultWait).bus with objWatch := watch } }
    (go .objectionLineFault (go .faultWaitEnd (s true))).bus.objFault = true ∧
    (go .objectionLineFault (go .faultWaitEnd (s false))).bus.objFault = false := by decide +kernel

/-- R40, R42: the line is watched while the interface finishes its own window. -/
theorem test_objection_while_finishing :
    let s := { ownWindow with bus := { ownWindow.bus with offTarget := some .off } }
    (go .objectionLineFault s).bus.objFault = true := by decide +kernel

theorem test_line_faults : (go .dataLineFault member).bus.rx = .faultWait ∧
    (go .dataLineFault (seat .member .window)).bus.rx = .window ∧
    (go .objectionLineFault receiving).port.notices = [.lineFault .objection] ∧
    (go .objectionLineFault { member with bus := { member.bus with objWatch := true } }).bus.objFault = true ∧
    (go .objectionLineRecovery { member with bus := { member.bus with objFault := true } }).bus.objFault = false ∧
    member.bus.on = true := by decide +kernel

/-! ## The journal -/

theorem test_live_record : journal1.frontier ≤ (Slot.filling 5000 ⟨3, 4, 2, 0⟩).gsn ∧
    (journal1.live (.filling 5 ⟨3, 4, 2, 0⟩)).opened = [2, 3, 4] ∧
    (journal1.live (.filling 2 ⟨3, 4, 2, 0⟩)).dir.frontier = 3 ∧
    (Directory.reset.live (.filling 5 ⟨3, 4, 2, 0⟩)).dir.window = some { low := 5, high := 5 } := by decide +kernel

theorem test_presence_learn : (journal1.presence 2).dir = journal1 ∧ (journal1.presence 4).opened = [2, 3] ∧
    (Directory.reset.presence 9).dir.frontier = 9 ∧ (Directory.reset.learn 10 4).1.opened = [1, 2, 3] ∧
    (journalGap.learn 10 3).2 = some { low := 1, high := 3 } ∧ (journalGap.learn 10 4).1.opened = [] ∧
    (journalGap.learn 10 6).1.opened = [4, 5] := by decide +kernel

theorem test_mark_lost : (journalGap.markLost [1, 2, 3]).held 2 = some (.lost 2) ∧
    (journalGap.markLost [1, 2, 3]).held 1 = journalGap.held 1 ∧ journalGap.found.lostCount = 1 := by decide +kernel

/-! ## Timers -/

theorem test_listen : (go .listenTimerExpiry { seat .listening .idle with
      mem := { (seat .listening .idle).mem with listenTimer := some 70 } }).sel.membership = some (.found 1) ∧
    (go .joinWaitExpiry { seat .joining .idle with
      mem := { (seat .joining .idle).mem with joinWait := some 70 } }).mem.listenTimer = some 300070 := by decide +kernel

/-- A leaving station whose leave timer runs. -/
def leaving : State :=
  { seat .leaving .idle with
    mem := { boot.mem with st := .leaving, leave := some { reason := .stop, voided := 0, timer := some 80, expired := false } } }

theorem test_leave_timer : (go .leaveTimerExpiry leaving).conf.drain = true ∧
    (go .leaveTimerExpiry { leaving with sel := { leaving.sel with inFlight := some {
      sender := .membership, body := .leave .stop, discard := false } } }).conf.drain = false := by decide +kernel

/-- A member that knows an active peer 3 with a missed count. -/
def peered (missed : Nat) : State :=
  { member with
    mem := { (member.mem.setPeer 3 { Peer.reset with status := .active, missed := missed, quiet := some 90 }) with
      tick := some 100, presence := some 60 } }

theorem test_heartbeat : ((go .heartbeatTick (peered 1)).mem.peer 3).missed = 2 ∧
    ((go .heartbeatTick (peered 2)).mem.peer 3).status = .silent ∧
    (go .heartbeatTick (peered 2)).port.notices = [.peerChange 3 .silent] ∧
    ((go (.peerSilent 3) (peered 3)).mem.peer 3).status = .silent ∧
    (go .heartbeatTick { leaving with mem := { leaving.mem with tick := some 100 } }).mem.tick = some 100100 := by
  decide +kernel

theorem test_presence_quiet : (go .presenceTimerExpiry (peered 0)).sel.membership = some (.presence 2 1 0x1234 true) ∧
    ((go (.quietMarkExpiry 3) (peered 0)).mem.peer 3).quiet = none := by decide +kernel

theorem test_sender_waits : ((go .staleWaitEnd (queued (.staleWait 40))).out.entries.map OutEntry.state) = [.contending] ∧
    ((go .backoffEnd (queued (.backoff 40))).out.entries.map OutEntry.state) = [.contending] ∧
    (go .responderBackoffEnd (responding (.backoff (.gone 3 1 1) 40))).sel.responder = some (.gone 3 1 1) := by decide +kernel

/-- R90: a peer's frame that raises the frontier ends STALE_WAIT, one that does not leaves it. -/
theorem test_stale_wait_ends :
    let s := { holding with out := (queued (.staleWait 9000)).out }
    ((go (.windowEnd 0) s).out.entries.map OutEntry.atRest) = [entry .waiting] ∧
    ((go (.windowEnd 1) s).out.entries.map OutEntry.state) = [.staleWait 9000] := by decide +kernel

/-- A station in SYNCING whose fetch of GSN 2 from peer 3 is at an attempt; peer 4 is a candidate. -/
def fetching (attempt : Nat) : State :=
  { syncing with
    mem := syncing.mem.setPeer 4 { Peer.reset with status := .active, heardFrontier := some 4, heardLow := some 1 }
    cat := { requester := some { first := 2, count := 1, phase := .awaiting 3 [] (some 50), received := [], attempt := attempt,
                                 tried := [], timeoutHeld := false, selectOwed := false }, responder := none } }

theorem test_deadline : (go .catchUpDeadline (fetching 1)).sel.requester = some (.fetch 4 2 1) ∧
    (go .catchUpDeadline (fetching 3)).dir.held 2 = some (.lost 2) ∧
    (go .catchUpDeadline (fetching 3)).port.notices = [.lost 2 1, .state .member] := by decide +kernel

theorem test_deadline_held :
    let d := (journalGap.put (.tentative 2 ⟨3, 1, 3, 0⟩))
    let s := { fetching 1 with dir := d }
    (match (go .catchUpDeadline s).cat.requester with | some c => c.timeoutHeld | none => false) = true := by decide +kernel

/-- A station in SYNCING over GAP slots 1 to 7 whose context over 2 to 5 times out; peers 3 and 4 have been heard. -/
def asking (tried : List (Station × TriedMark)) (low3 low4 : Option Nat) : State :=
  let peer := fun l => { Peer.reset with status := .active, heardFrontier := some 9, heardLow := l }
  { syncing with
    dir := (Directory.reset.learn 10 8).1.dir
    mem := (syncing.mem.setPeer 3 (peer low3)).setPeer 4 (peer low4)
    cat := { requester := some { context 2 4 [] 1 with tried := tried }, responder := none } }

/-- R122, R123: an untried peer before one that timed out; what all lows pass is given up, and the remainder asked for. -/
theorem test_selection :
    (go .catchUpDeadline (asking [] (some 1) (some 2))).sel.requester = some (.fetch 4 2 4) ∧
    (go .catchUpDeadline (asking [] (some 1) none)).sel.requester = some (.fetch 3 2 4) ∧
    (go .catchUpDeadline (asking [] (some 6) (some 4))).sel.requester = some (.fetch 4 4 2) ∧
    (go .catchUpDeadline (asking [] (some 6) (some 4))).port.notices = [.lost 2 2] := by decide +kernel

/-- R124: GONE-exhausted with a peer that holds the upper part, and with none; waiting for a low that is not known. -/
theorem test_selection_exhausted :
    let heard := fun (s : State) => { s with
      bus := { s.bus with rx := .window, windows := [openWin false 0] }
      conf := { s.conf with decision := some ⟨.noObjection, false⟩ }
      filter := { receive := none, window := some (.sound 3 (.gone 2 2 4) 0x55 .addressedHere) } }
    (go (.windowEnd 0) (heard (asking [] (some 1) (some 4)))).sel.requester = some (.fetch 4 4 2) ∧
    (go (.windowEnd 0) (heard (asking [] (some 1) (some 4)))).port.notices = [.lost 2 2] ∧
    (go (.windowEnd 0) (heard (asking [(4, .gone)] (some 1) (some 1)))).port.notices = [.lost 2 4] ∧
    ((go (.windowEnd 0) (heard (asking [] (some 1) none))).cat.requester.map RequesterCtx.phase) = some .waitingPeer ∧
    (go (.windowEnd 0) (heard (asking [] (some 1) none))).sel.requester = none := by decide +kernel

/-- R130, R131, R133: the third attempt gives up each stretch, and the context reports what it received. -/
theorem test_third_attempt :
    let s := asking [] (some 1) none
    let t := { s with
      dir := s.dir.put (.filling 3 ⟨3, 4, 2, 0x55⟩)
      cat := { s.cat with requester := some (context 2 3 [3] 3) } }
    (go .catchUpDeadline t).port.notices = [.lost 2 1, .lost 4 1, .gapFilled 3 1] ∧
    (go .catchUpDeadline t).cat.requester.map (fun c => (c.first, c.count)) = some (1, 1) := by decide +kernel

/-- A station whose drain is complete. -/
def drainDone (s : State) (r : LeaveReason) : State :=
  { s with
    conf := { s.conf with drain := true }
    mem := { s.mem with leave := some { reason := r, voided := 0, timer := none, expired := false }, joinOwed := true } }

theorem test_drain : (go .drainComplete (drainDone leaving .stop)).mem.st = .detached ∧
    (go .drainComplete (drainDone leaving .stop)).bus.rx = .off ∧ (go .drainComplete (drainDone leaving .hold)).mem.st = .held ∧
    (go .drainComplete (drainDone (seat .joining .idle) .stop)).mem.st = .member ∧
    (go .drainComplete (drainDone (seat .fault .stopped) .stop)).mem.st = .fault := by decide +kernel

/-! ## The array port -/

/-- A member whose commit writer waits with an entry, in a commit mode. -/
def writerWaits (e : PendEntry) (m : CommitMode) (d : Directory) : State :=
  { member with
    params := some { params with commitMode := m }
    dir := d
    conf := { member.conf with entries := [e] }
    arb := { member.arb with writer := some { rank := 3, since := 0, atFree := true } } }

theorem test_writer_grant : (writerWaits (live 2 2 .confirmed) .late journalFill).grantable .writer = true ∧
    (go .commitWriteGrant (writerWaits (live 2 2 .confirmed) .late journalFill)).portOp = some .commitWrite ∧
    (go .commitWriteGrant (writerWaits (live 2 2 .confirmed) .late journal1)).conf.entries = [] ∧
    (go .commitWriteGrant (writerWaits (live 2 2 .confirmed) .late journal1)).portOp = none := by decide +kernel

theorem test_early_grant :
    (go .commitWriteGrant (writerWaits (live 2 2 (.awaitingWindow false)) .early journal1)).portOp = some .commitWrite ∧
    (go .commitWriteGrant (writerWaits (replay (.awaitingWindow false)) .early journalGap)).portOp = some .commitWrite ∧
    (go .commitWriteGrant (writerWaits (replay (.awaitingWindow false)) .early journal1)).portOp = none := by decide +kernel

/-- The writer's operation after its grant. -/
def granted (e : PendEntry) (m : CommitMode) (d : Directory) : State := go .commitWriteGrant (writerWaits e m d)

theorem test_late_write :
    (go .commitWriteComplete (granted (live 2 2 .confirmed) .late journalFill)).dir.held 2 =
      some (.committed 2 ⟨2, 4, 2, 0x55⟩) ∧
    (go .commitWriteComplete (granted (live 2 2 .confirmed) .late journalFill)).array = [(512, 7), (513, 8)] ∧
    (go .commitWriteComplete (granted (live 2 2 .confirmed) .late journalFill)).port.notices = [.committed 4 2] := by
  decide +kernel

/-- R73: an early write whose entry is already CONFIRMED completes as the late write. -/
theorem test_early_write_confirmed :
    let s := granted (live 2 2 (.awaitingWindow false)) .early journal1
    let t := { s with
      dir := journalFill
      conf := { s.conf with
        entries := [live 2 2 .confirmed], write := s.conf.write.map fun w => { w with early := false } } }
    go .earlyWriteComplete t = go .commitWriteComplete t ∧ (go .earlyWriteComplete t).conf.entries = [] ∧
    (go .earlyWriteComplete t).dir.held 2 = some (.committed 2 ⟨2, 4, 2, 0x55⟩) := by decide +kernel

/-- R73: a REPLAY whose slot is LOST by the end of its early write. -/
theorem test_early_write_lost :
    let s := granted (replay (.awaitingWindow false)) .early journalGap
    let t := { s with dir := journalGap.markLost [2] }
    (go .earlyWriteComplete t).dir = t.dir ∧ (go .earlyWriteComplete t).conf.entries = t.conf.entries := by decide +kernel

theorem test_early_write :
    (go .earlyWriteComplete (granted (replay (.awaitingWindow false)) .early journalGap)).dir.held 2 =
      some (.tentative 2 ⟨3, 4, 2, 0x55⟩) ∧
    ((go .earlyWriteComplete (granted (live 2 2 (.awaitingWindow false)) .early journal1)).conf.entries.map PendEntry.status) =
      [.writtenEarly] ∧
    (go .earlyWriteComplete { writing true true with conf := { (writing true true).conf with write := some {
      gsn := 5, payload := [7, 8], grantedEarly := true, early := true, entryPresent := false } } }).conf.entries = [] := by
  decide +kernel

/-- The responder's request waits. -/
def readWaits (d : Directory) : State :=
  { responding (.reading none) with
    dir := d, arb := { member.arb with responder := some { rank := 4, since := 0, atFree := true } } }

theorem test_replay_read : (readWaits journal1).grantable .responder = true ∧
    (go .replayReadGrant (readWaits journal1)).portOp = some (.replayRead (.replay 3 1 2 1 [0, 0, 0]) true) ∧
    (go .replayReadGrant (readWaits Directory.reset)).sel.responder = some (.gone 3 1 1) ∧
    (go .replayReadComplete (go .replayReadGrant (readWaits journal1))).sel.responder = some (.replay 3 1 2 1 [0, 0, 0]) := by
  decide +kernel

/-- A READ waits. -/
def localWaits (g : Nat) : State :=
  { syncing with
    port := { syncing.port with phase := .working, slot := some (.read g) }
    arb := { syncing.arb with localPort := some { rank := 5, since := 0, atFree := true } } }

theorem test_local_read : (localWaits 1).grantable .localPort = true ∧
    (go .localReadGrant (localWaits 2)).port.response = some (.noData .gap 2) ∧
    (go .localReadGrant (localWaits 4)).port.response = some (.noData .notYet 4) ∧
    (go .localReadGrant (localWaits 0)).port.response = some (.noData .expired 0) ∧
    (go .localReadComplete (go .localReadGrant (localWaits 3))).port.response = some (.data 3 3 1 false [0, 0, 0]) := by
  decide +kernel

/-- R141: requests that arrived together are granted by rank once one of them has given up its grant. -/
theorem test_given_up_grant :
    let s := { localWaits 2 with arb := { (localWaits 2).arb with
      responder := some { rank := 4, since := 0, atFree := true }, sweep := some { rank := 1, since := 0, atFree := true } } }
    s.grantable .localPort = true ∧ s.grantable .responder = true ∧
    (go .localReadGrant s).arb.grant = none ∧ (go .localReadGrant s).grantable .responder = false ∧
    (go .localReadGrant s).grantable .sweep = true := by decide +kernel

/-! ## Sweeps, temperature, hold -/

/-- The engine's request waits at a rank. -/
def sweepWaits (st : StationState) (r : Nat) (b : Int) : State :=
  { seat st .idle with
    arb := { boot.arb with sweep := some { rank := r, since := 0, atFree := true } }
    swp := { boot.swp with balance := b, licence := true, quietSince := none } }

theorem test_slices : (sweepWaits .member 6 5).grantable .sweep = true ∧
    (go .sweepSliceGrant (sweepWaits .member 6 5)).swp.licence = false ∧
    (go .sweepSliceComplete (go .sweepSliceGrant (sweepWaits .member 6 5))).swp.balance = 4 ∧
    (go .sweepSliceComplete (go .sweepSliceGrant (sweepWaits .member 7 (-7)))).swp.balance = -8 ∧
    (go .sweepSliceComplete (go .sweepSliceGrant (sweepWaits .member 6 5))).now = 3000 := by decide +kernel

theorem test_interval : (go .intervalTimerExpiry boot).swp.balance = 1 ∧ boot.swp.balance ≤ 7 ∧
    (go .intervalTimerExpiry boot).swp.intervalEnd = some 80000 ∧
    (go .intervalTimerExpiry { boot with temp := { boot.temp with cls := .cool }, swp := { boot.swp with cool := .skip } }).swp.balance =
      0 := by decide +kernel

/-- R146, R148, R150: what an interval raises by the balance it reaches. -/
theorem test_interval_requests :
    let after := fun b => go .intervalTimerExpiry { member with swp := { member.swp with balance := b } }
    let pending := go .intervalTimerExpiry { member with conf := { member.conf with entries := [live 2 3 .confirmed] } }
    (after 7).arb.sweep.map Request.rank = some 1 ∧ (after 0).arb.sweep.map Request.rank = some 7 ∧
    (after 5).sel.sweep = some (.quiet 320) ∧ (after 6).sel.sweep = some (.quiet 320) ∧ (after 7).sel.sweep = none ∧
    (after 4).sel.sweep = none ∧ pending.arb.sweep = none ∧
    (go .intervalTimerExpiry boot).arb.sweep.map Request.rank = some 7 := by decide +kernel

/-- A member whose idle run counts from 10. -/
def idling (b : Int) : State := { member with swp := { member.swp with idleSince := some 10, balance := b } }

theorem test_pull_in : (idling 0).swp.licence = false ∧ (idling 0).sliceGranted = false ∧ (idling 0).arb.sweep = none ∧
    (go .pullIn (idling 0)).arb.sweep = some { rank := 7, since := 2010, atFree := true } ∧
    (go .pullIn (idling (-7))).arb.sweep = some { rank := 7, since := 2010, atFree := true } ∧
    (go .pullIn (idling (-8))).arb.sweep = none := by decide +kernel

theorem test_port_quiet : boot.swp.quietSince = some 0 ∧ boot.inGroup = false ∧ boot.onHold = false ∧ boot.arb.writer = none ∧
    (boot.conf.entries.any boot.eligible) = false ∧
    (go .portQuietPullIn boot).arb.sweep = some { rank := 7, since := 2000, atFree := true } := by decide +kernel

/-- A station evaluated before, in a class. -/
def classed (c : TempClass) : State := { boot with temp := { boot.temp with cls := c, evaluated := true } }

theorem test_temperature : (go (.temperatureEvaluation 39) boot).temp.cls = .cool ∧
    (go (.temperatureEvaluation 37) (classed .normal)).temp.cls = .normal ∧
    (go (.temperatureEvaluation 36) (classed .hot)).temp.cls = .cool ∧
    (go (.temperatureEvaluation 83) (classed .critical)).temp.cls = .hot ∧
    (go (.temperatureEvaluation 100) (classed .cool)).port.notices = [.temperature .critical] ∧
    (go (.temperatureEvaluation 100) (classed .cool)).swp.intervalEnd = some 20000 := by decide +kernel

theorem test_hold_passes : (go .holdTimerExpiry passing).swp.holdTimer = some 80000 ∧
    (go .internalPassComplete passing).swp.passState = some .none ∧ (go .internalPassComplete passing).now = 3000 ∧
    (go .holdTimerExpiry (go .internalPassComplete passing)).swp.passState = some .waiting ∧
    (go .internalPassGrant (go .holdTimerExpiry (go .internalPassComplete passing))).portOp = some .internalPass := by
  decide +kernel

/-- The exit pass waits. -/
def exiting : State := go .release passing

theorem test_exit_pass : exiting.bus.rx = .off ∧ exiting.bus.windows = [] ∧ exiting.filter.receive = none ∧
    (go .exitPassGrant exiting).portOp = some .exitPass ∧
    (go .exitPassComplete (go .exitPassGrant exiting)).mem.st = .listening ∧
    (go .exitPassComplete (go .exitPassGrant exiting)).bus.rx = .syncWait := by decide +kernel

/-! ## Invariants -/

theorem test_invariants_met : member.ArrayCanonical ∧ member.port.Bounded ∧ member.CountsBounded ∧
    (member.dir.window = some { low := 1, high := 1 } ∧ member.dir.frontier = 2) ∧ member.sel.record = false := by
  decide +kernel

theorem test_counted_met : syncing.dir.gapCount = 1 ∧ syncing.dir.Counted := by decide +kernel

theorem test_filled_met : member.dir.Filled := by
  refine ⟨fun w h g a b => ?_, fun n x h => ?_⟩
  · cases h
    obtain rfl : g = 1 := Nat.le_antisymm b a
    decide +kernel
  · simp only [Directory.slotAt, member, journal1, mapGet] at h
    split at h
    · rename_i e
      cases h
      subst e
      exact ⟨by decide +kernel, _, rfl, Nat.le_refl 1, Nat.le_refl 1⟩
    · cases h

/-- R96, R106: the hypotheses of the invariants are met, and a QUIET that arrives on an idle bus is chosen. -/
theorem test_choice_made :
    let s := { member with swp := { member.swp with balance := 5 } }
    s.StateFollowsGaps ∧ syncing.StateFollowsGaps ∧ s.sel.choice = none ∧ s.sel.membership = none ∧
    (go .intervalTimerExpiry s).sel.choice = some .sweep := by decide +kernel

theorem test_head_in_line : (chosen .outbound).mayStartRecord = true ∧
    ((chosen .outbound).out.entries.map OutEntry.state) = [.contending] ∧ (chosen .outbound).sel.record = true := by
  decide +kernel

end Sys2Proof.Tests
end

section
/-! The state at reset (R1): what a hardware reset leaves in every block and in the record array. -/

namespace Sys2Proof.Proofs

open Sys2Proof Sys2Proof.Machine

/-- Settles O4: block by block, the state at reset is a literal. -/
theorem resetLeavesTheGivenValues : Obligations.ResetLeavesTheGivenValues := by
  refine ⟨⟨fun _ => rfl, rfl, rfl, rfl, rfl⟩, ?_, ?_, ⟨rfl, rfl, fun who => ?_, rfl, rfl, rfl⟩, ?_, ?_, ?_, ?_, ?_⟩
  case refine_3 => cases who <;> rfl
  case refine_4 =>
    refine ⟨rfl, rfl, rfl, rfl, rfl, rfl, rfl, rfl, fun k => ?_⟩
    simp [State.reset, Membership.reset, Membership.peer]
  case refine_8 =>
    have st : State.reset.mem.st = .unset := rfl
    refine ⟨rfl, by decide, by decide, ⟨fun _ h => (nomatch h), fun _ h => (nomatch h)⟩, Directory.Counted.reset,
      Directory.Filled.reset, rfl, ⟨?_, ?_⟩, fun _ h => (nomatch h), ?_, rfl⟩
    · simp [st]
    · simp [st]
    · exact fun h => (nomatch h)
  all_goals decide

/-- An abandoned operation leaves the array alone unless it was a commit write (R139). -/
theorem abandonedArray_of_not_writing {s : State} (h : s.portOp ≠ some .commitWrite) : s.abandonedArray = s.array :=
  if_neg h

/-- An abandoned write leaves every byte outside its payload's place in the cell (R139). -/
theorem arrayRead_abandonedArray {s : State} {w : CurrentWrite} (h : s.conf.write = some w) {a : Nat}
    (outside : a < cellAddress w.gsn ∨ cellAddress w.gsn + w.payload.length ≤ a) :
    arrayRead s.abandonedArray a = arrayRead s.array a := by
  unfold State.abandonedArray
  split
  · rw [h]
    exact arrayRead_abandon_outside _ _ _ _ _ _ (by simpa using outside)
  · rfl

/-- Settles O5: every block is the reset state's; the array is that of the abandoned operation. -/
theorem hardwareResetRestoresEveryBlock : Obligations.HardwareResetRestoresEveryBlock := fun s =>
  ⟨s.hardwareReset, rfl, rfl, abandonedArray_of_not_writing, fun _ h _ => arrayRead_abandonedArray h⟩

end Sys2Proof.Proofs
end

section
/-! The journal directory by GSN (01_the_journal.md): what each of its operations makes of the descriptor that holds a GSN,
of the window and of the frontier. -/

namespace Sys2Proof.Proofs

open Sys2Proof Sys2Proof.Machine

variable {d : Directory} {w : Window} {g h f p depth newHigh stop : Nat} {l : List Nat} {x : Slot}

/-! ## One slot -/

theorem held_eq_match (d : Directory) (g : Nat) :
    d.held g = (d.slotAt (slotOf g)).bind fun x => if x.gsn = g then some x else none := by
  unfold Directory.held
  cases d.slotAt (slotOf g) <;> rfl

/-- What holds a GSN depends on the GSN's slot alone. -/
theorem held_congr {d e : Directory} (k : d.slotAt (slotOf g) = e.slotAt (slotOf g)) : d.held g = e.held g := by
  rw [held_eq_match, held_eq_match, k]

theorem held_of_slotAt_none (k : d.slotAt (slotOf g) = none) : d.held g = none := by rw [held_eq_match, k]; rfl

theorem held_of_slotAt (k : d.slotAt (slotOf g) = some x) (e : x.gsn = g) : d.held g = some x :=
  (Directory.held_eq _ _ _).2 ⟨k, e⟩

theorem held_of_slotAt_ne (k : d.slotAt (slotOf g) = some x) (e : x.gsn ≠ g) : d.held g = none := by
  rw [held_eq_match, k]; exact if_neg e

@[simp] theorem held_setFrontier : ({ d with frontier := f } : Directory).held g = d.held g := rfl

@[simp] theorem held_put_same : (d.put x).held x.gsn = some x := held_of_slotAt (by simp) rfl

theorem held_put_of_apart (k : slotOf x.gsn ≠ slotOf g) : (d.put x).held g = d.held g := held_congr (by simp [k])

/-! ## Marking LOST (R23) -/

/-- A GAP slot that becomes LOST changes what holds its own GSN only. -/
theorem held_put_lost (k : d.held h = some (.gap h)) :
    (d.put (.lost h)).held g = if g = h then some (.lost h) else d.held g := by
  split
  · next e => subst e; exact held_put_same (x := .lost g)
  · next e =>
    by_cases c : slotOf h = slotOf g
    · have before : d.held g = none :=
        held_of_slotAt_ne (x := .gap h) (c ▸ ((Directory.held_eq _ _ _).1 k).1) fun k => e k.symm
      rw [before]
      exact held_of_slotAt_ne (x := .lost h) (by simp [Slot.gsn, c]) (fun k => e k.symm)
    · exact held_put_of_apart (x := .lost h) c

theorem markLost_cons : d.markLost (h :: l) = (if d.holdsGap h then d.put (.lost h) else d).markLost l := rfl

/-- R23: of the GSNs of a list those in GAP become LOST, every other GSN is held as before. -/
theorem held_markLost : (d.markLost l).held g =
    if g ∈ l ∧ d.held g = some (.gap g) then some (.lost g) else d.held g := by
  induction l generalizing d with
  | nil => simp [Directory.markLost]
  | cons h rest ih =>
    rw [markLost_cons, ih]
    by_cases k : d.held h = some (.gap h)
    · rw [if_pos ((Directory.holdsGap_iff _ _).2 k), held_put_lost k]
      by_cases e : g = h
      · subst e; simp [k]
      · simp [e]
    · rw [if_neg fun c => k ((Directory.holdsGap_iff _ _).1 c)]
      by_cases e : g = h
      · subst e; simp [k]
      · simp [e]

/-! ## Runs of slots -/

theorem held_foldl_vacate_of_mem (k : g ∈ l) : (l.foldl Directory.vacate d).held g = none :=
  held_of_slotAt_none (by rw [Directory.slotAt_foldl_vacate, if_pos ⟨g, k, rfl⟩])

theorem held_foldl_vacate_of_apart (k : ∀ h ∈ l, slotOf h ≠ slotOf g) :
    (l.foldl Directory.vacate d).held g = d.held g :=
  held_congr (by rw [Directory.slotAt_foldl_vacate, if_neg fun ⟨h, m, e⟩ => k h m e])

/-- The directory after each GSN of a list has become GAP. -/
abbrev openGaps (d : Directory) (l : List Nat) : Directory := l.foldl (fun acc g => acc.put (.gap g)) d

theorem held_openGaps_of_mem (k : g ∈ l) (apart : ∀ h ∈ l, slotOf h = slotOf g → h = g) :
    (openGaps d l).held g = some (.gap g) := by
  rcases Directory.slotAt_foldl_gap l d (slotOf g) with ⟨_, n⟩ | ⟨h, m, e, s⟩
  · exact absurd rfl (n g k)
  · exact held_of_slotAt (x := .gap g) (by rw [s, apart h m e]) rfl

theorem held_openGaps_of_apart (k : ∀ h ∈ l, slotOf h ≠ slotOf g) : (openGaps d l).held g = d.held g := by
  rcases Directory.slotAt_foldl_gap l d (slotOf g) with ⟨e, _⟩ | ⟨h, m, e, _⟩
  · exact held_congr e
  · exact absurd e (k h m)

/-- A vacated GSN stays unheld, whatever other GSNs become GAP. -/
theorem held_openGaps_eq_none (k : d.held g = none) (n : g ∉ l) : (openGaps d l).held g = none := by
  rcases Directory.slotAt_foldl_gap l d (slotOf g) with ⟨e, _⟩ | ⟨h, m, _, s⟩
  · exact (held_congr e).trans k
  · exact held_of_slotAt_ne s fun e => n (e ▸ m)

/-! ## Raising the high (R7, R10, R12, R19) -/

theorem raise_retired (d : Directory) (w : Window) (newHigh start stop : Nat) :
    g ∈ (d.raise w newHigh start stop).retired ↔
      w.low ≤ g ∧ g < max w.low (newHigh - 4095) ∧ g ≤ w.high ∧ d.held g = some (.gap g) := by
  simp only [Directory.raise, List.mem_filter, List.mem_range'_1, Directory.holdsGap_iff]
  refine ⟨fun ⟨m, k⟩ => ⟨?_, ?_, ?_, k⟩, fun ⟨a, b, c, k⟩ => ⟨?_, k⟩⟩ <;> omega

theorem raise_opened (d : Directory) (w : Window) (newHigh start stop : Nat) :
    (d.raise w newHigh start stop).opened =
      List.range' (max start (max w.low (newHigh - 4095))) (stop - max start (max w.low (newHigh - 4095))) := rfl

theorem held_raise (d : Directory) (w : Window) (newHigh start stop g : Nat) :
    (d.raise w newHigh start stop).dir.held g =
      (openGaps ((List.range' w.low (min (max w.low (newHigh - 4095)) (w.high + 1) - w.low)).foldl Directory.vacate d)
        (d.raise w newHigh start stop).opened).held g := rfl

section
variable (shape : w.low ≤ w.high ∧ w.high ≤ w.low + 4095) (room : stop ≤ newHigh + 1)

include shape room in
/-- The GSNs passed over become GAP. -/
theorem held_raise_opened (a : max (w.high + 1) (max w.low (newHigh - 4095)) ≤ g) (b : g < stop) :
    (d.raise w newHigh (w.high + 1) stop).dir.held g = some (.gap g) := by
  rw [held_raise, raise_opened]
  refine held_openGaps_of_mem (by rw [List.mem_range'_1]; omega) fun h m e => ?_
  rw [List.mem_range'_1] at m
  exact Directory.slotOf_inj e (by omega) (by omega)

/-- The GSNs below the new low are retired. -/
theorem held_raise_retired (a : w.low ≤ g) (b : g < max w.low (newHigh - 4095)) (c : g ≤ w.high) :
    (d.raise w newHigh (w.high + 1) stop).dir.held g = none := by
  rw [held_raise, raise_opened]
  refine held_openGaps_eq_none (held_foldl_vacate_of_mem ?_) ?_ <;> rw [List.mem_range'_1] <;> omega

include shape room in
/-- The GSNs that stay in the window are held as before. -/
theorem held_raise_kept (a : max w.low (newHigh - 4095) ≤ g) (b : g ≤ w.high) :
    (d.raise w newHigh (w.high + 1) stop).dir.held g = d.held g := by
  rw [held_raise, raise_opened, held_openGaps_of_apart, held_foldl_vacate_of_apart]
  all_goals
    intro h m e
    rw [List.mem_range'_1] at m
    have := Directory.slotOf_inj e (by omega) (by omega)
    omega

end

/-! ## A live record (R6, R7, R8) -/

theorem live_of_window (e : d.window = some w) (k : d.frontier ≤ x.gsn) :
    d.live x = { d.raise w x.gsn d.frontier x.gsn with
      dir := { (d.raise w x.gsn d.frontier x.gsn).dir.put x with frontier := x.gsn + 1 } } := by
  unfold Directory.live
  rw [e]
  exact if_neg (Nat.not_lt.2 k)

theorem live_of_empty (e : d.window = none) : d.live x =
    { dir := { d.put x with window := some { low := x.gsn, high := x.gsn }, frontier := x.gsn + 1 }, retired := [],
      opened := [] } := by
  unfold Directory.live
  rw [e]

/-- Settles O33, by the reading of a raised directory GSN by GSN; the record's own slot is no other GSN's of the window. -/
theorem liveRecordMovesTheWindow : Obligations.LiveRecordMovesTheWindow := by
  refine ⟨fun d x w e a b f k => ?_, fun d x e => ?_⟩
  · have shape := And.intro a b
    have apart : ∀ g, max w.low (x.gsn - 4095) ≤ g → g < x.gsn → (d.live x).dir.held g =
        (d.raise w x.gsn (w.high + 1) x.gsn).dir.held g := fun g lo hi => by
      rw [live_of_window e k, f]
      refine held_put_of_apart (d := (d.raise w x.gsn (w.high + 1) x.gsn).dir) fun c => ?_
      have := Directory.slotOf_inj c (by omega) (by omega)
      omega
    intro c low
    refine ⟨?_, ?_, ?_, fun g lo hi => ?_, fun g lo hi top => ?_, fun g lo hi => ?_, fun g => ?_⟩
    · simp only [c, live_of_window e k]; rfl
    · simp only [c, live_of_window e k]
    · simp only [c, live_of_window e k]; exact held_put_same (d := (d.raise w x.gsn d.frontier x.gsn).dir)
    · rw [f] at lo
      exact (apart g (by omega) hi).trans (held_raise_opened shape (by omega) (by omega) hi)
    · have gone := held_raise_retired (d := d) (newHigh := x.gsn) (stop := x.gsn) lo hi top
      simp only [c, live_of_window e k, f]
      by_cases s : slotOf x.gsn = slotOf g
      · refine held_of_slotAt_ne (x := x) (d := (d.raise w x.gsn (w.high + 1) x.gsn).dir.put x) (by simp [s]) (by omega)
      · exact (held_put_of_apart (d := (d.raise w x.gsn (w.high + 1) x.gsn).dir) s).trans gone
    · exact (apart g lo (by omega)).trans (held_raise_kept shape (by omega) lo hi)
    · simp only [c, live_of_window e k]
      exact raise_retired d w x.gsn d.frontier x.gsn
  · rw [live_of_empty e]
    exact ⟨rfl, rfl, held_put_same (d := d), rfl, rfl⟩

/-! ## Founding and marking LOST (R11, R23) -/

theorem mem_gaps (e : d.window = some w) : g ∈ d.gaps ↔ w.low ≤ g ∧ g ≤ w.high ∧ d.held g = some (.gap g) := by
  simp only [Directory.gaps, Directory.windowGsns, e, gsnRange, List.mem_filter, List.mem_range'_1,
    Directory.holdsGap_iff]
  refine ⟨fun ⟨m, k⟩ => ⟨?_, ?_, k⟩, fun ⟨a, b, k⟩ => ⟨?_, k⟩⟩ <;> omega

theorem gaps_of_empty (e : d.window = none) : d.gaps = [] := by simp [Directory.gaps, Directory.windowGsns, e]

/-- Settles O35, by `held_markLost`. -/
theorem onlyGapsBecomeLost : Obligations.OnlyGapsBecomeLost := by
  refine ⟨fun _ _ _ => held_markLost, fun d l => ⟨markLost_window d l, markLost_frontier d l⟩, fun d w e => ?_, fun d e => ?_⟩
  · refine ⟨by simp [Directory.found, Directory.foundingFrontier, e], (markLost_window d d.gaps).trans e,
      fun g a b => ?_⟩
    have m : (d.markLost d.gaps).held g = d.found.held g := rfl
    rw [← m, held_markLost]
    simp [mem_gaps e, a, b]
  · simp [Directory.found, Directory.foundingFrontier, e, gaps_of_empty e, Directory.markLost]

/-! ## PRESENCE (R10) -/

theorem presence_of_le (k : p ≤ d.frontier) : d.presence p = { dir := d, retired := [], opened := [] } := if_pos k

theorem presence_of_empty (k : d.frontier < p) (e : d.window = none) :
    d.presence p = { dir := { d with frontier := p }, retired := [], opened := [] } := by
  unfold Directory.presence
  rw [if_neg (Nat.not_le.2 k), e]

theorem presence_of_window (k : d.frontier < p) (e : d.window = some w) :
    d.presence p = { d.raise w (p - 1) d.frontier p with
      dir := { (d.raise w (p - 1) d.frontier p).dir with frontier := p } } := by
  unfold Directory.presence
  rw [if_neg (Nat.not_le.2 k), e]

/-- A PRESENCE above the frontier of a window that is not empty. -/
theorem presence_spec (k : d.frontier < p) (e : d.window = some w) (f : d.frontier = w.high + 1) (a : w.low ≤ w.high)
    (b : w.high ≤ w.low + 4095) :
    (d.presence p).dir.window = some { low := max w.low (p - 4096), high := p - 1 } ∧ (d.presence p).dir.frontier = p ∧
    (∀ g, max d.frontier (max w.low (p - 4096)) ≤ g → g < p → (d.presence p).dir.held g = some (.gap g)) ∧
    (∀ g, max w.low (p - 4096) ≤ g → g ≤ w.high → (d.presence p).dir.held g = d.held g) := by
  have low : p - 1 - 4095 = p - 4096 := by omega
  have room : p ≤ p - 1 + 1 := by omega
  rw [presence_of_window k e, f]
  refine ⟨by simp [low], rfl, fun g lo hi => ?_, fun g lo hi => ?_⟩
  · rw [held_setFrontier]
    exact held_raise_opened (newHigh := p - 1) (stop := p) ⟨a, b⟩ room (by rw [low]; exact lo) hi
  · rw [held_setFrontier]
    exact held_raise_kept (newHigh := p - 1) (stop := p) ⟨a, b⟩ room (by rw [low]; exact lo) hi

/-! ## Join learning (R12, R13) -/

theorem learnFresh_of_none (k : depth = 0 ∨ f ≤ 1) :
    d.learnFresh depth f = { dir := { d with frontier := f }, retired := [], opened := [] } := if_pos k

@[simp] theorem learnFresh_frontier : (d.learnFresh depth f).dir.frontier = f := by
  unfold Directory.learnFresh
  split <;> rfl

/-- A fresh joiner opens the GSNs of its history depth below the frontier it learns. -/
theorem learnFresh_spec (k : 0 < depth) (m : 2 ≤ f) (n : depth ≤ 4095) :
    (d.learnFresh depth f).dir.window = some { low := max 1 (f - depth), high := f - 1 } ∧
    ∀ g, max 1 (f - depth) ≤ g → g < f → (d.learnFresh depth f).dir.held g = some (.gap g) := by
  unfold Directory.learnFresh
  rw [if_neg (by omega)]
  refine ⟨rfl, fun g lo hi => ?_⟩
  refine held_openGaps_of_mem (d := d) (by rw [List.mem_range'_1]; omega) fun h m e => ?_
  rw [List.mem_range'_1] at m
  exact Directory.slotOf_inj e (by omega) (by omega)

theorem learn_of_empty (e : d.window = none) : d.learn depth f = (d.learnFresh depth f, none) := by
  unfold Directory.learn; rw [e]

theorem learn_of_below (e : d.window = some w) (k : f ≤ w.high) :
    d.learn depth f = (Directory.reset.learnFresh depth f, some w) := by
  unfold Directory.learn; rw [e]; exact if_pos k

theorem learn_of_next (e : d.window = some w) (k : f = w.high + 1) :
    d.learn depth f = (⟨{ d with frontier := f }, [], []⟩, none) := by
  unfold Directory.learn; rw [e]; simp [k]

theorem learn_of_above (e : d.window = some w) (k : w.high + 1 < f) :
    d.learn depth f = ({ d.raise w (f - 1) (w.high + 1) f with
      dir := { (d.raise w (f - 1) (w.high + 1) f).dir with frontier := f } }, none) := by
  unfold Directory.learn; rw [e]
  dsimp only
  rw [if_neg (by omega), if_neg (by omega)]

/-- R12, R13: the frontier a joiner learns becomes its own, by the first case that applies. -/
theorem learn_spec (d : Directory) (depth f : Nat) : (d.learn depth f).1.dir.frontier = f ∧
    (d.window = none → (d.learn depth f).2 = none ∧
      ((depth = 0 ∨ f = 1) → (d.learn depth f).1.dir = { d with frontier := f }) ∧
      (0 < depth → 2 ≤ f → depth ≤ 4095 →
        (d.learn depth f).1.dir.window = some { low := max 1 (f - depth), high := f - 1 } ∧
        ∀ g, max 1 (f - depth) ≤ g → g < f → (d.learn depth f).1.dir.held g = some (.gap g))) ∧
    (∀ w, d.window = some w → f ≤ w.high →
      (d.learn depth f).2 = some w ∧ (d.learn depth f).1 = Directory.reset.learnFresh depth f) ∧
    (∀ w, d.window = some w → f = w.high + 1 → d.learn depth f = (⟨{ d with frontier := f }, [], []⟩, none)) ∧
    (∀ w, d.window = some w → w.high + 1 < f → (d.learn depth f).2 = none ∧
      (d.learn depth f).1.dir.window = some { low := max w.low (f - 4096), high := f - 1 }) := by
  refine ⟨?_, fun e => ?_, fun w e k => ?_, fun w e k => learn_of_next e k, fun w e k => ?_⟩
  · cases e : d.window with
    | none => rw [learn_of_empty e]; exact learnFresh_frontier
    | some w =>
      rcases Nat.lt_trichotomy f (w.high + 1) with k | k | k
      · rw [learn_of_below e (Nat.le_of_lt_succ k)]; exact learnFresh_frontier
      · rw [learn_of_next e k]
      · rw [learn_of_above e k]
  · rw [learn_of_empty e]
    exact ⟨rfl, fun k => by rw [learnFresh_of_none (by omega)], learnFresh_spec⟩
  · rw [learn_of_below e k]; exact ⟨rfl, rfl⟩
  · have low : f - 1 - 4095 = f - 4096 := by omega
    rw [learn_of_above e k]; simp [low]

end Sys2Proof.Proofs
end

section
/-! Station state, directory and requester context together, and the operations that leave all three alone. -/

namespace Sys2Proof.Proofs

open Sys2Proof Sys2Proof.Machine

/-- What R106 and R120 speak of: the station state, the directory and the requester context. -/
def standing (s : State) : StationState × Directory × Option RequesterCtx := (s.mem.st, s.dir, s.cat.requester)

theorem standing_iff {s t : State} :
    standing t = standing s ↔ t.mem.st = s.mem.st ∧ t.dir = s.dir ∧ t.cat.requester = s.cat.requester := by
  simp [standing]

theorem standing_requester {s t : State} (h : standing t = standing s) : t.cat.requester = s.cat.requester :=
  (standing_iff.1 h).2.2

theorem standing_st {s t : State} (h : standing t = standing s) : t.mem.st = s.mem.st := (standing_iff.1 h).1

theorem standing_dir {s t : State} (h : standing t = standing s) : t.dir = s.dir := (standing_iff.1 h).2.1

variable (s : State)

/-! ## Updates of one block -/

@[simp] theorem standing_setNow {v : Nat} : standing (s.setNow v) = standing s := rfl
@[simp] theorem standing_at {n : Nat} : standing (s.at n) = standing s := rfl
@[simp] theorem standing_setPending {v : List Instr} : standing (s.setPending v) = standing s := rfl
@[simp] theorem standing_setFreeCount {v : Nat} : standing (s.setFreeCount v) = standing s := rfl
@[simp] theorem standing_setResetHeld {v : Bool} : standing (s.setResetHeld v) = standing s := rfl
@[simp] theorem standing_setStraps {v : Straps} : standing (s.setStraps v) = standing s := rfl
@[simp] theorem standing_setParams {v : Option StartParams} : standing (s.setParams v) = standing s := rfl
@[simp] theorem standing_setArray {v : List Host.Cell} : standing (s.setArray v) = standing s := rfl
@[simp] theorem standing_setBus {v : Bus} : standing (s.setBus v) = standing s := rfl
@[simp] theorem standing_setFilter {v : Filter} : standing (s.setFilter v) = standing s := rfl
@[simp] theorem standing_setConf {v : Confirmation} : standing (s.setConf v) = standing s := rfl
@[simp] theorem standing_setOut {v : Outbound} : standing (s.setOut v) = standing s := rfl
@[simp] theorem standing_setSel {v : Selector} : standing (s.setSel v) = standing s := rfl
@[simp] theorem standing_setArb {v : Arbiter} : standing (s.setArb v) = standing s := rfl
@[simp] theorem standing_setSwp {v : Sweep} : standing (s.setSwp v) = standing s := rfl
@[simp] theorem standing_setTemp {v : Temperature} : standing (s.setTemp v) = standing s := rfl
@[simp] theorem standing_setPort {v : LocalPort} : standing (s.setPort v) = standing s := rfl
@[simp] theorem standing_setResponder {r : Option ResponderCtx} : standing (s.setResponder r) = standing s := rfl

/-- The membership unit's update, when the station state stays. -/
@[simp] theorem standing_setMem {v : Membership} (h : v.st = s.mem.st) : standing (s.setMem v) = standing s :=
  standing_iff.2 ⟨h, rfl, rfl⟩

/-! ## Notices, the port, the array port -/

@[simp] theorem standing_post {n : Notice} : standing (s.post n) = standing s := rfl

@[simp] theorem standing_postAll {l : List Notice} : standing (s.postAll l) = standing s := by
  induction l generalizing s with
  | nil => rfl
  | cons n rest ih => exact ih (s.post n)

@[simp] theorem standing_answer {a : Answer} : standing (s.answer a) = standing s := rfl
@[simp] theorem standing_working {c : SlotCommand} : standing (s.working c) = standing s := rfl
@[simp] theorem standing_shiftOut {l : List Byte} {n : Nat} : standing (s.shiftOut l n) = standing s := rfl
@[simp] theorem standing_withArb {a : Arbiter} : standing (s.withArb a) = standing s := rfl
@[simp] theorem standing_place {who : PortClient} {r : Nat} : standing (s.place who r) = standing s := rfl
@[simp] theorem standing_placeRead : standing s.placeRead = standing s := rfl
@[simp] theorem standing_takeGrant {who : PortClient} {op : PortOp} {e : Option Nat} :
    standing (s.takeGrant who op e) = standing s := rfl
@[simp] theorem standing_giveUpGrant {who : PortClient} : standing (s.giveUpGrant who) = standing s := rfl
@[simp] theorem standing_freePort : standing s.freePort = standing s := rfl

@[simp] theorem standing_withdraw {who : PortClient} : standing (s.withdraw who) = standing s := by
  unfold State.withdraw
  split <;> rfl

/-! ## The selector and the outbound queue -/

@[simp] theorem standing_offer {who : Sender} {b : FrameBody} : standing (s.offer who b) = standing s := rfl
@[simp] theorem standing_unoffer {who : Sender} : standing (s.unoffer who) = standing s := rfl

@[simp] theorem standing_reoffer {who : Sender} {b : FrameBody} : standing (s.reoffer who b) = standing s := by
  unfold State.reoffer
  split <;> rfl

@[simp] theorem standing_discardFlight {who : Sender} : standing (s.discardFlight who) = standing s := by
  unfold State.discardFlight
  split
  · split <;> rfl
  · rfl

@[simp] theorem standing_keepPresence : standing s.keepPresence = standing s := rfl
@[simp] theorem standing_setHead {h : OutEntry} : standing (s.setHead h) = standing s := rfl
@[simp] theorem standing_popHead : standing s.popHead = standing s := rfl
@[simp] theorem standing_dropHead {h : OutEntry} {r : DropReason} : standing (s.dropHead h r) = standing s := rfl

@[simp] theorem standing_dropAll {r : DropReason} : standing (s.dropAll r) = standing s := by simp [State.dropAll]

@[simp] theorem standing_recordResult {c : Observed} {r : Bool} : standing (s.recordResult c r) = standing s := by
  unfold State.recordResult
  split
  · rfl
  · dsimp only
    repeat' split
    all_goals rfl

@[simp] theorem standing_endStaleWait : standing s.endStaleWait = standing s := by
  unfold State.endStaleWait
  repeat' split
  all_goals rfl

@[simp] theorem standing_spendNumbers : standing s.spendNumbers = standing s := by
  unfold State.spendNumbers
  split <;> simp

@[simp] theorem standing_departQueue : standing s.departQueue = standing s := by
  unfold State.departQueue
  repeat' split
  all_goals simp

@[simp] theorem standing_finishDeparture : standing s.finishDeparture = standing s := by
  unfold State.finishDeparture
  split <;> simp

@[simp] theorem standing_startChoice {who : Sender} : standing (s.startChoice who) = standing s := by
  unfold State.startChoice State.startRecord
  repeat' split
  all_goals rfl

@[simp] theorem standing_returnOffer {f : InFlight} : standing (s.returnOffer f) = standing s := by
  unfold State.returnOffer
  dsimp only
  repeat' split
  all_goals rfl

/-! ## What follows by itself -/

theorem standing_of_follows {t : State} (h : Follows s t) : standing t = standing s := by rw [h.same]; rfl

@[simp] theorem standing_settle : standing s.settle = standing s := standing_of_follows s (.settle s)
@[simp] theorem standing_settleSend : standing s.settleSend = standing s := standing_of_follows s (.settleSend s)

/-! ## The bus interface -/

@[simp] theorem standing_setRx {x : RxState} : standing (s.setRx x) = standing s := rfl
@[simp] theorem standing_reachIdle : standing s.reachIdle = standing s := rfl
@[simp] theorem standing_beginFrame {own : Bool} : standing (s.beginFrame own) = standing s := rfl
@[simp] theorem standing_retune {x : RxState} : standing (s.retune x) = standing s := by
  simp [State.retune]

@[simp] theorem standing_finishOwn {x : RxState} : standing (s.finishOwn x) = standing s := rfl

@[simp] theorem standing_switchTo {x : RxState} : standing (s.switchTo x) = standing s := by
  unfold State.switchTo
  split <;> simp

@[simp] theorem standing_finishSwitch : standing s.finishSwitch = standing s := by
  unfold State.finishSwitch
  repeat' split
  all_goals simp

@[simp] theorem standing_afterWindow : standing s.afterWindow = standing s := by
  unfold State.afterWindow
  repeat' split
  all_goals rfl

@[simp] theorem standing_flagFault : standing s.flagFault = standing s := by
  unfold State.flagFault
  split <;> rfl

@[simp] theorem standing_objectionFault : standing s.objectionFault = standing s := by
  unfold State.objectionFault
  split <;> simp

@[simp] theorem standing_dataLineFault : standing s.dataLineFault = standing s := by
  unfold State.dataLineFault
  dsimp only
  split <;> simp

@[simp] theorem standing_judge {c : Classified} {own : Bool} : standing (s.judge c own) = standing s := by
  unfold State.judge
  repeat' split
  all_goals rfl

@[simp] theorem standing_endFrame {r : ReceiveRecord} : standing (s.endFrame r) = standing s := by
  unfold State.endFrame
  dsimp only
  split <;> simp

@[simp] theorem standing_openWindow {w : WindowRun} : standing (s.openWindow w) = standing s := by
  unfold State.openWindow
  dsimp only
  split <;> rfl

/-! ## The confirmation unit -/

@[simp] theorem standing_setEntries {l : List PendEntry} : standing (s.setEntries l) = standing s := rfl
@[simp] theorem standing_confirmEntry {e : PendEntry} : standing (s.confirmEntry e) = standing s := rfl
@[simp] theorem standing_declineEntry {e : PendEntry} : standing (s.declineEntry e) = standing s := rfl

@[simp] theorem standing_postCommitted {e : PendEntry} : standing (s.postCommitted e) = standing s := by
  unfold State.postCommitted
  split <;> rfl

@[simp] theorem standing_countBudget {c : Observed} : standing (s.countBudget c) = standing s := by
  unfold State.countBudget
  split <;> rfl

@[simp] theorem standing_tryEntry {e : PendEntry} : standing (s.tryEntry e) = standing s := by
  unfold State.tryEntry
  split <;> rfl

@[simp] theorem standing_grantWrite {e : PendEntry} : standing (s.grantWrite e) = standing s := by
  unfold State.grantWrite
  dsimp only
  repeat' split
  all_goals simp

@[simp] theorem standing_endWrite {w : CurrentWrite} : standing (s.endWrite w) = standing s := rfl

/-! ## The responder -/

@[simp] theorem standing_offerResponse {r : ResponderCtx} {b : FrameBody} :
    standing (s.offerResponse r b) = standing s := by simp [State.offerResponse]

@[simp] theorem standing_respDecide {r : ResponderCtx} : standing (s.respDecide r) = standing s := by
  unfold State.respDecide
  repeat' split
  all_goals simp

@[simp] theorem standing_respSettle : standing s.respSettle = standing s := by
  unfold State.respSettle
  repeat' split
  all_goals simp

@[simp] theorem standing_endResponder : standing s.endResponder = standing s := by
  unfold State.endResponder
  split <;> simp

@[simp] theorem standing_takeFetch {k : Station} {g n : Nat} : standing (s.takeFetch k g n) = standing s := by
  unfold State.takeFetch
  split <;> simp

@[simp] theorem standing_respResult {x y : Bool} : standing (s.respResult x y) = standing s := by
  unfold State.respResult
  dsimp only
  repeat' split
  all_goals simp

@[simp] theorem standing_judgeReplay {r : ResponderCtx} : standing (s.judgeReplay r) = standing s := by
  unfold State.judgeReplay
  split <;> simp

@[simp] theorem standing_takeReplay {b : FrameBody} {x : Bool} : standing (s.takeReplay b x) = standing s := by
  unfold State.takeReplay
  repeat' split
  all_goals simp

/-! ## The membership unit -/

@[simp] theorem standing_peerHeard {k : Station} {b : FrameBody} : standing (s.peerHeard k b) = standing s := by
  unfold State.peerHeard
  dsimp only
  split <;> rfl

@[simp] theorem standing_checkDivergence {k : Station} {p : Nat} {c : Check} :
    standing (s.checkDivergence k p c) = standing s := by
  unfold State.checkDivergence
  dsimp only
  repeat' split
  all_goals simp [Membership.setPeer]

@[simp] theorem standing_resetPeers : standing s.resetPeers = standing s := rfl

@[simp] theorem standing_visit {k : Station} : standing (s.visit k) = standing s := by
  unfold State.visit
  dsimp only
  split <;> rfl

@[simp] theorem standing_visitAll {l : List Station} : standing (l.foldl State.visit s) = standing s := by
  induction l generalizing s with
  | nil => rfl
  | cons k rest ih => rw [List.foldl_cons, ih, standing_visit]

@[simp] theorem standing_silence {k : Station} : standing (s.silence k) = standing s := rfl

@[simp] theorem standing_ownConfirmed : standing s.ownConfirmed = standing s := by
  unfold State.ownConfirmed
  dsimp only
  repeat' split
  all_goals rfl

@[simp] theorem standing_presenceResult {x : Bool} : standing (s.presenceResult x) = standing s := by
  unfold State.presenceResult
  split <;> rfl

/-! ## Temperature -/

@[simp] theorem standing_evaluate {n : Nat} {z : Int} : standing (s.evaluate n z) = standing s := by
  unfold State.evaluate State.changeClass
  dsimp only
  repeat' split
  all_goals rfl

end Sys2Proof.Proofs
end

section
/-! The work of the catch-up unit's requester (R106, R120 to R133): it selects responders, gives up GAP slots, ends and forms
contexts and reports gaps. What it leaves alone, and what a run and a received set keep through it. -/

namespace Sys2Proof.Proofs

open Sys2Proof Sys2Proof.Machine

/-! ## Runs and contexts -/

theorem leadingRun_eq_range' (g : Nat) (l : List Nat) :
    leadingRun (g :: l) = List.range' g (leadingRun (g :: l)).length := by
  induction l generalizing g with
  | nil => rfl
  | cons h rest ih =>
    rw [leadingRun]
    split
    · next e =>
      subst e
      rw [List.length_cons, List.range'_succ, ← ih]
    · rfl

theorem mem_of_mem_leadingRun {g : Nat} {l : List Nat} (h : g ∈ leadingRun l) : g ∈ l := by
  induction l with
  | nil => exact h
  | cons a rest ih =>
    cases rest with
    | nil => exact h
    | cons b rest =>
      rw [leadingRun] at h
      split at h
      · rcases List.mem_cons.1 h with e | m
        · exact e ▸ List.mem_cons_self ..
        · exact List.mem_cons_of_mem _ (ih m)
      · exact List.mem_singleton.1 h ▸ List.mem_cons_self ..

/-- The first `n` GSNs of a leading run are contiguous GSNs of the list. -/
theorem mem_of_leadingRun_take {l rest : List Nat} {a n : Nat} (h : (leadingRun l).take n = a :: rest) {g : Nat}
    (lo : a ≤ g) (hi : g < a + (rest.length + 1)) : g ∈ l := by
  cases l with
  | nil => simp [leadingRun] at h
  | cons b more =>
    have r := leadingRun_eq_range' b more
    generalize (leadingRun (b :: more)).length = m at r
    have len := congrArg List.length h
    have head := congrArg List.head? (List.take_append_drop n (leadingRun (b :: more)))
    rw [h, List.cons_append, List.head?_cons, r, List.head?_range'] at head
    simp only [r, List.length_take, List.length_range', List.length_cons] at len
    rw [if_neg (by omega)] at head
    obtain rfl : a = b := Option.some.inj head
    exact mem_of_mem_leadingRun (by rw [r, List.mem_range'_1]; omega)

/-- A property of a context's run, by its first GSN and count, and of its received set that outlasts the requester's work while
the window is `v`: it passes to a part of the run, and a context just formed over GSNs of the window has it. -/
structure Lasting (v : Option Window) (q : Nat → Nat → List Nat → Prop) : Prop where
  narrow : ∀ {a n a' n' r}, q a n r → a ≤ a' → a' + n' ≤ a + n → q a' n' r
  fresh : ∀ {a n}, (∀ g, a ≤ g → g < a + n → ∃ w ∈ v, w.low ≤ g ∧ g ≤ w.high) → q a n []

/-- The property of a requester context. -/
def OfContext (q : Nat → Nat → List Nat → Prop) (s : State) : Prop :=
  ∀ c, s.cat.requester = some c → q c.first c.count c.received

/-- A context has every lasting property that the state's own context has. -/
def Stems (s : State) (c : RequesterCtx) : Prop :=
  ∀ q, Lasting s.dir.window q → OfContext q s → q c.first c.count c.received

namespace Stems

variable {s : State} {c e : RequesterCtx} {d : Directory}

theorem own (h : s.cat.requester = some c) : Stems s c := fun _ _ k => k c h

theorem narrow (h : Stems s c) (r : e.received = c.received) (a : c.first ≤ e.first)
    (b : e.first + e.count ≤ c.first + c.count) : Stems s e := fun q l k => r ▸ l.narrow (h q l k) a b

/-- Section 7.3: the cut of a run is a part of it. -/
theorem cut (h : Stems s c) : Stems s (c.cut d) := by
  unfold RequesterCtx.cut
  split
  · exact h
  · next g rest e =>
    have mem : ∀ x, g ≤ x → x < g + (rest.length + 1) → x ∈ c.run := fun x lo hi =>
      (List.mem_filter.1 (mem_of_leadingRun_take (l := c.outstanding d) (n := rest.length + 1) (by rw [e]; simp) lo hi)).1
    have first := mem g le_rfl (by omega)
    have last := mem (g + rest.length) (by omega) (by omega)
    simp only [RequesterCtx.run, List.mem_range'_1] at first last
    exact h.narrow rfl first.1 (by simp only; omega)

end Stems

/-! ## What the work leaves alone -/

/-- From `s` to `t` the requester has worked: its context and its offers have changed, GAP slots have been given up, the station
state may have followed the gap count. -/
structure Seeks (s t : State) : Prop where
  same : t = { s with
    dir := t.dir, sel := t.sel, cat := { s.cat with requester := t.cat.requester }, mem := { s.mem with st := t.mem.st } }
  window : t.dir.window = s.dir.window
  frontier : t.dir.frontier = s.dir.frontier
  held : ∀ g, t.dir.held g = s.dir.held g ∨ (s.dir.held g = some (.gap g) ∧ t.dir.held g = some (.lost g))
  context : ∀ q, Lasting s.dir.window q → OfContext q s → OfContext q t

namespace Seeks

variable {s t u : State} {c : RequesterCtx}

theorem refl (s : State) : Seeks s s := ⟨rfl, rfl, rfl, fun _ => .inl rfl, fun _ _ k => k⟩

theorem trans (h : Seeks s t) (k : Seeks t u) : Seeks s u where
  same := by
    have cat : t.cat = { s.cat with requester := t.cat.requester } := by rw [h.same]
    have mem : t.mem = { s.mem with st := t.mem.st } := by rw [h.same]
    rw [k.same, cat, mem, h.same]
  window := k.window.trans h.window
  frontier := k.frontier.trans h.frontier
  held g := by
    rcases k.held g with e | ⟨e, l⟩
    · rw [e]; exact h.held g
    · rcases h.held g with e' | ⟨_, l'⟩
      · exact .inr ⟨e' ▸ e, l⟩
      · rw [l'] at e; cases e
  context q l o := k.context q (h.window ▸ l) (h.context q l o)

theorem setSel {v : Selector} (h : Seeks s t) : Seeks s (t.setSel v) :=
  h.trans ⟨rfl, rfl, rfl, fun _ => .inl rfl, fun _ _ k => k⟩

theorem unoffer {who : Sender} (h : Seeks s t) : Seeks s (t.unoffer who) := h.setSel

theorem reoffer {who : Sender} {b : FrameBody} (h : Seeks s t) : Seeks s (t.reoffer who b) := by
  unfold State.reoffer
  split
  · exact h
  · exact h.setSel.setSel

theorem discardFlight {who : Sender} (h : Seeks s t) : Seeks s (t.discardFlight who) := by
  unfold State.discardFlight
  split
  · split
    · exact h.setSel
    · exact h
  · exact h

theorem endContext (h : Seeks s t) : Seeks s (t.setRequester none) :=
  h.trans ⟨rfl, rfl, rfl, fun _ => .inl rfl, fun _ _ _ _ e => nomatch e⟩

theorem setRequester (h : Seeks s t) (k : Stems t c) : Seeks s (t.setRequester (some c)) :=
  h.trans ⟨rfl, rfl, rfl, fun _ => .inl rfl, fun q l o e he => by cases he; exact k q l o⟩

theorem offerFetch {k : Station} (h : Seeks s t) (m : Stems t c) : Seeks s (t.offerFetch c k) :=
  (h.setRequester (c := { c with phase := .offered k, selectOwed := false, timeoutHeld := false }) m).reoffer

theorem markLost {l : List Nat} (h : Seeks s t) : Seeks s (t.setDir (t.dir.markLost l)) :=
  h.trans ⟨rfl, markLost_window _ _, markLost_frontier _ _, fun g => by
    rw [show (t.setDir (t.dir.markLost l)).dir.held g = _ from held_markLost]
    split
    · next e => exact .inr ⟨e.2, rfl⟩
    · exact .inl rfl, fun _ _ k => k⟩

theorem enter {x : StationState} (h : Seeks s t) : Seeks s (t.setMem { t.mem with st := x }) :=
  h.trans ⟨rfl, rfl, rfl, fun _ => .inl rfl, fun _ _ k => k⟩

theorem fetchResult {x : Bool} (h : Seeks s t) : Seeks s (t.fetchResult x) := by
  unfold State.fetchResult
  split
  · next c e =>
    split
    · split
      · exact h.setRequester (Stems.own (c := c) e)
      · exact h
    · exact h
  · exact h

/-- R132: a run loses retired GSNs at its low end only. -/
theorem runAbove_narrows (a n : Nat) (l : List Nat) :
    a ≤ (runAbove a n l).1 ∧ (runAbove a n l).1 + (runAbove a n l).2 ≤ a + n := by
  unfold runAbove
  split
  · next g e =>
    have m := List.mem_of_getLast? e
    simp only [List.mem_filter, Bool.and_eq_true, decide_eq_true_eq] at m
    omega
  · exact ⟨le_rfl, le_rfl⟩

theorem applyRetired {l : List Nat} (h : Seeks s t) : Seeks s (t.applyRetired l) := by
  unfold State.applyRetired
  split
  · exact h
  · next c e =>
    have n := runAbove_narrows c.first c.count l
    exact h.setRequester ((Stems.own e).narrow rfl n.1 n.2)

end Seeks

/-! ## The work in the middle of an event -/

/-- The owed notices are of the kinds their lists are for (R100, R131, R133). -/
structure Tidy (b : Batch) : Prop where
  lost : ∀ n ∈ b.lost, ∃ g k, n = .lost g k
  filled : ∀ n ∈ b.filled, ∃ g k, n = .gapFilled g k
  states : ∀ n ∈ b.states, ∃ x, n = .state x

theorem tidy_batch (s : State) : Tidy s.batch :=
  ⟨fun _ h => (nomatch h), fun _ h => (nomatch h), fun _ h => (nomatch h)⟩

/-- From `a` to `b` the requester has worked, and the notices it owes are in their lists. -/
structure Pursues (a b : Batch) : Prop where
  seeks : Seeks a.st b.st
  tidy : Tidy a → Tidy b

namespace Pursues

variable {a b : Batch} {c : RequesterCtx} {k : Station}

theorem refl (a : Batch) : Pursues a a := ⟨.refl _, id⟩

theorem trans {c : Batch} (h : Pursues a b) (k : Pursues b c) : Pursues a c :=
  ⟨h.seeks.trans k.seeks, k.tidy ∘ h.tidy⟩

theorem on {f : State → State} (h : Pursues a b) (k : Seeks b.st (f b.st)) : Pursues a (b.on f) :=
  h.trans ⟨k, fun t => ⟨t.lost, t.filled, t.states⟩⟩

theorem oweLost {l : List Nat} (h : Pursues a b) : Pursues a (b.oweLost l) :=
  h.trans ⟨.refl _, fun t => ⟨fun n m => by
    rcases List.mem_append.1 m with m | m
    · exact t.lost n m
    · obtain ⟨r, _, e⟩ := List.mem_map.1 m
      exact ⟨_, _, e.symm⟩, t.filled, t.states⟩⟩

theorem oweFilled {l : List Nat} (h : Pursues a b) : Pursues a (b.oweFilled l) :=
  h.trans ⟨.refl _, fun t => ⟨t.lost, fun n m => by
    rcases List.mem_append.1 m with m | m
    · exact t.filled n m
    · obtain ⟨r, _, e⟩ := List.mem_map.1 m
      exact ⟨_, _, e.symm⟩, t.states⟩⟩

theorem enter {x : StationState} (h : Pursues a b) : Pursues a (b.enter x) :=
  h.trans ⟨(Seeks.refl _).enter, fun t => ⟨t.lost, t.filled, fun n m => by
    rcases List.mem_append.1 m with m | m
    · exact t.states n m
    · exact ⟨x, List.mem_singleton.1 m⟩⟩⟩

theorem endRequester (h : Pursues a b) : Pursues a b.endRequester := by
  unfold Batch.endRequester
  split
  · exact h
  · exact (h.on (Seeks.refl _).unoffer.discardFlight.endContext).oweFilled

theorem giveUp {l : List Nat} (h : Pursues a b) : Pursues a (b.giveUp l) := (h.on (Seeks.refl _).markLost).oweLost

theorem select {n : Nat} (h : Pursues a b) : Pursues a (b.select n) := by
  induction n generalizing b with
  | zero => exact h
  | succ n ih =>
    rw [Batch.select]
    split
    · exact h
    · next c e =>
      have own : Stems b.st c := .own e
      have part : Stems b.st (c.cut b.st.dir) := own.cut
      have waits : ∀ {c' : RequesterCtx}, Stems b.st c' →
          Pursues a (b.on fun s => (s.unoffer .requester).setRequester (some c')) := fun m =>
        h.on ((Seeks.refl _).unoffer.setRequester m)
      dsimp only
      split
      · exact waits own
      · split
        · exact h.endRequester
        · split
          · exact h.on ((Seeks.refl _).offerFetch part)
          · split
            · exact ih (giveUp (waits part))
            · split
              · exact ih (giveUp (waits part))
              · exact waits part

theorem selectResponder (h : Pursues a b) : Pursues a b.selectResponder := h.select

theorem completeAttempt (h : Pursues a b) (m : Stems b.st c) : Pursues a (b.completeAttempt c k) :=
  selectResponder (h.on ((Seeks.refl _).setRequester m))

theorem applyTimeout (h : Pursues a b) (m : Stems b.st c) : Pursues a (b.applyTimeout c k) := by
  unfold Batch.applyTimeout
  split
  · exact endRequester (giveUp (h.on ((Seeks.refl _).setRequester m)))
  · exact selectResponder (h.on ((Seeks.refl _).setRequester m))

theorem timeOut (h : Pursues a b) : Pursues a b.timeOut := by
  unfold Batch.timeOut
  split
  · next c e =>
    have own : Stems b.st c := .own e
    split
    · split
      · exact h.on ((Seeks.refl _).setRequester own)
      · exact h.applyTimeout own
    · exact h
  · exact h

theorem recheck (h : Pursues a b) : Pursues a b.recheck := by
  unfold Batch.recheck
  split
  · exact h
  · next c e =>
    have own : Stems b.st c := .own e
    dsimp only
    split
    · exact h
    split
    · exact h.endRequester
    split
    · split
      · exact h.completeAttempt own
      · split
        · exact h.applyTimeout own
        · exact h
    · split
      · exact h
      · split
        · exact h.on ((Seeks.refl _).offerFetch own.cut)
        · exact h.selectResponder
    · split
      · exact h.selectResponder
      · exact h

theorem presenceHeard (h : Pursues a b) : Pursues a b.presenceHeard := by
  unfold Batch.presenceHeard
  split
  · split
    · exact h.selectResponder
    · exact h
  · exact h

theorem goneHeard {g n : Nat} (h : Pursues a b) : Pursues a (b.goneHeard k g n) := by
  unfold Batch.goneHeard
  split
  · exact h
  · next c e =>
    dsimp only
    split
    · split
      · exact h.on ((Seeks.refl _).setRequester (Stems.own (c := c) e))
      · exact h
    · exact h

theorem gapReport (h : Pursues a b) : Pursues a b.gapReport := by
  unfold Batch.gapReport
  split
  · exact h.enter
  · split
    · exact h.enter
    · exact h

theorem formContext (h : Pursues a b) : Pursues a b.formContext := by
  unfold Batch.formContext
  split
  · exact h
  · next g rest e =>
    refine selectResponder (h.on ((Seeks.refl _).setRequester fun q l _ => l.fresh fun x lo hi => ?_))
    have m : x ∈ b.st.dir.gaps := mem_of_leadingRun_take e lo hi
    cases w : b.st.dir.window with
    | none => rw [gaps_of_empty w] at m; cases m
    | some w' => exact ⟨w', rfl, ((mem_gaps w).1 m).1, ((mem_gaps w).1 m).2.1⟩

theorem formContexts {n : Nat} (h : Pursues a b) : Pursues a (b.formContexts n) := by
  induction n generalizing b with
  | zero => exact h.gapReport
  | succ n ih =>
    rw [Batch.formContexts]
    split
    · exact ih h.gapReport.formContext
    · exact h.gapReport

theorem followGaps (h : Pursues a b) : Pursues a b.followGaps := h.formContexts

end Pursues

/-! ## The station state follows the gap count (R106) -/

theorem gapReport_follows (b : Batch) : b.gapReport.st.StateFollowsGaps := by
  unfold Batch.gapReport
  split
  · next h => exact ⟨fun e => (nomatch e), fun _ => h.2⟩
  · next m =>
    split
    · next h => exact ⟨fun _ => h.2, fun e => (nomatch e)⟩
    · next n => exact ⟨fun e => by_contra fun z => m ⟨e, Nat.pos_of_ne_zero z⟩, fun e => Nat.pos_of_ne_zero fun z => n ⟨e, z⟩⟩

theorem formContexts_follows (n : Nat) (b : Batch) : (b.formContexts n).st.StateFollowsGaps := by
  induction n generalizing b with
  | zero => exact gapReport_follows b
  | succ n ih =>
    rw [Batch.formContexts]
    split
    · exact ih _
    · exact gapReport_follows b

theorem followGaps_follows (b : Batch) : b.followGaps.st.StateFollowsGaps := formContexts_follows _ b

end Sys2Proof.Proofs
end

section
/-! The received set stays in rising order (R120) through the work of the catch-up unit, the membership unit and the confirmation
unit, and what the departures do to the station state. -/

namespace Sys2Proof.Proofs

open Sys2Proof Sys2Proof.Machine

/-! ## Rising sets -/

theorem mem_gsnInsert {g h : Nat} {l : List Nat} (m : h ∈ gsnInsert g l) : h = g ∨ h ∈ l := by
  induction l with
  | nil => exact .inl (List.mem_singleton.1 m)
  | cons a rest ih =>
    rw [gsnInsert] at m
    split at m
    · exact List.mem_cons.1 m
    · split at m
      · exact .inr m
      · rcases List.mem_cons.1 m with e | m
        · exact .inr (e ▸ List.mem_cons_self ..)
        · exact (ih m).imp_right (List.mem_cons_of_mem _)

theorem gsnInsert_rises {g : Nat} {l : List Nat} (k : l.Pairwise (· < ·)) : (gsnInsert g l).Pairwise (· < ·) := by
  induction l with
  | nil => exact List.pairwise_singleton _ _
  | cons a rest ih =>
    have above := (List.pairwise_cons.1 k).1
    rw [gsnInsert]
    split
    · next lt =>
      refine List.pairwise_cons.2 ⟨fun b m => ?_, k⟩
      rcases List.mem_cons.1 m with e | m
      · exact e ▸ lt
      · exact lt.trans (above b m)
    · split
      · exact k
      · next nlt ne =>
        refine List.pairwise_cons.2 ⟨fun b m => ?_, ih (List.pairwise_cons.1 k).2⟩
        rcases mem_gsnInsert m with e | m
        · omega
        · exact above b m

/-! ## What keeps the received set -/

theorem rises_of_requester {s t : State} (h : s.ReceivedRises) (e : t.cat.requester = s.cat.requester) : t.ReceivedRises :=
  fun c k => h c (e ▸ k)

theorem rises_of_standing {s t : State} (h : s.ReceivedRises) (e : standing t = standing s) : t.ReceivedRises :=
  rises_of_requester h (standing_requester e)

/-- The order of the received set outlasts the requester's work. -/
theorem lasting_rises (v : Option Window) : Lasting v fun _ _ r => r.Pairwise (· < ·) :=
  ⟨fun h _ _ => h, fun _ => .nil⟩

theorem rises_of_seeks {s t : State} (h : s.ReceivedRises) (k : Seeks s t) : t.ReceivedRises :=
  k.context _ (lasting_rises _) h

theorem rises_setRequester {s : State} {c : RequesterCtx} (h : c.received.Pairwise (· < ·)) :
    (s.setRequester (some c)).ReceivedRises := fun _ e => by cases e; exact h

section
variable {s : State} {b : Batch}

theorem rises_journal {c : JournalChange} (h : s.ReceivedRises) : (s.journal c).ReceivedRises :=
  rises_of_standing (s := s.setDir c.dir) h (standing_postAll _)

theorem rises_flush (h : b.st.ReceivedRises) : b.flush.ReceivedRises := rises_of_standing h (standing_postAll _)

/-! ## The catch-up unit -/

theorem rises_replayHeard {k : Station} {g : Nat} {filled : Bool} (h : b.st.ReceivedRises) :
    (b.replayHeard k g filled).st.ReceivedRises := by
  unfold Batch.replayHeard
  split
  · split <;> exact h
  · next c e =>
    have with_g : (if filled = true then { c with received := gsnInsert g c.received } else c).received.Pairwise
        (· < ·) := by
      split
      · exact gsnInsert_rises (h c e)
      · exact h c e
    refine rises_setRequester ?_
    generalize (if filled = true then { c with received := gsnInsert g c.received } else c) = c' at with_g ⊢
    split
    · split
      · exact with_g
      · exact with_g
    · exact with_g

theorem rises_suspendContexts (h : s.ReceivedRises) : s.suspendContexts.ReceivedRises := by
  have w : (s.withdraw .responder).ReceivedRises := rises_of_standing h (by simp)
  unfold State.suspendContexts
  dsimp only
  split
  · next c e =>
    split
    · exact rises_setRequester (w c e)
    · exact w
  · exact w

theorem rises_clearContexts (h : b.st.ReceivedRises) : b.clearContexts.st.ReceivedRises :=
  rises_of_seeks (s := b.st.endResponder) (rises_of_standing h (by simp))
    (Pursues.refl (b.on State.endResponder)).endRequester.seeks

/-! ## The membership unit -/

theorem rises_requestDrain (h : s.ReceivedRises) : s.requestDrain.ReceivedRises := rises_of_requester (s := s) h rfl

theorem rises_learn {f : Nat} (h : s.ReceivedRises) : (s.learn f).ReceivedRises := by
  have posted : ∀ {t : State} (w : Option Window), t.ReceivedRises → (match w with
      | some w => t.post (.historyDiscarded w.low w.high)
      | none => t).ReceivedRises := fun w k => by
    split
    · exact k
    · exact k
  exact rises_of_standing (rises_of_standing (rises_journal (posted _ h)) (standing_setMem _ rfl)) (standing_reoffer _)

theorem rises_groupHeard {k : Station} {f : FrameBody} (h : b.st.ReceivedRises) : (b.groupHeard k f).st.ReceivedRises := by
  have heard : (b.on fun s => s.peerHeard k f).st.ReceivedRises := rises_of_standing h (standing_peerHeard _)
  unfold Batch.groupHeard
  dsimp only
  generalize (b.on fun s => s.peerHeard k f) = d at heard ⊢
  have joined : (if d.st.mem.st ≠ .joining then
      (d.on fun s => (s.unoffer .membership).setMem { s.mem with listenTimer := none }).enter .joining
      else d).st.ReceivedRises := by
    split
    · exact heard
    · exact heard
  generalize (if d.st.mem.st ≠ .joining then
      (d.on fun s => (s.unoffer .membership).setMem { s.mem with listenTimer := none }).enter .joining
      else d) = e at joined ⊢
  split
  · exact rises_learn joined
  · split
    · exact joined
    · exact joined

theorem rises_enterGroup (h : b.st.ReceivedRises) : b.enterGroup.st.ReceivedRises := h

theorem rises_endGroupPart (h : b.st.ReceivedRises) : b.endGroupPart.st.ReceivedRises := by
  refine rises_requestDrain (rises_of_standing (rises_clearContexts ?_) (standing_resetPeers _))
  exact rises_of_standing h (by simp [Batch.on])

theorem rises_leaveResult {x : Bool} (h : b.st.ReceivedRises) : (b.leaveResult x).st.ReceivedRises := by
  unfold Batch.leaveResult
  split
  · exact h
  · split
    · exact h
    · split
      · exact rises_endGroupPart h
      · dsimp only
        split
        · exact rises_endGroupPart h
        · exact h

theorem rises_enterFault (h : b.st.ReceivedRises) : b.enterFault.st.ReceivedRises := by
  refine rises_of_standing (rises_requestDrain (rises_of_standing (rises_clearContexts ?_) (standing_resetPeers _)))
    (standing_switchTo _)
  exact rises_of_standing (s := (b.enter .fault).st) h (by simp [Batch.on])

theorem rises_duplicateFound (h : s.ReceivedRises) : s.duplicateFound.ReceivedRises :=
  rises_flush (rises_enterFault h)

theorem rises_enterLeaving {r : LeaveReason} (h : s.ReceivedRises) : (s.enterLeaving r).ReceivedRises :=
  rises_suspendContexts (s := s.unoffer .membership) h

theorem rises_enter {x : StationState} (h : s.ReceivedRises) : (s.enter x).ReceivedRises :=
  rises_of_requester (s := s) h rfl

theorem rises_switchOff (h : s.ReceivedRises) : ((s.setMem { s.mem with leave := none }).switchTo .off).ReceivedRises :=
  rises_of_standing (s := s) h (by simp)

theorem rises_detach (h : s.ReceivedRises) : s.detach.ReceivedRises := rises_enter (rises_switchOff h)

theorem rises_enterHeld (h : s.ReceivedRises) : s.enterHeld.ReceivedRises :=
  rises_of_standing (rises_enter (x := .held) (rises_switchOff h)) (by simp [State.enterHeld])

theorem rises_drained (h : b.st.ReceivedRises) : b.drained.st.ReceivedRises := by
  unfold Batch.drained
  split
  · split
    · exact rises_enterHeld h
    · exact rises_detach h
  · split
    · exact rises_enterGroup h
    · exact h
  · exact h

theorem rises_enterListening (h : s.ReceivedRises) : s.enterListening.ReceivedRises := by
  unfold State.enterListening
  dsimp only
  split
  · exact h
  · exact rises_enter (rises_of_standing h (by simp))

/-! ## The confirmation unit -/

theorem rises_confirmed {e : PendEntry} (h : s.ReceivedRises) : (s.confirmed e).st.ReceivedRises := by
  unfold State.confirmed
  dsimp only
  split
  · split
    · refine rises_of_standing ?_ (standing_postCommitted _)
      exact rises_journal (s := s.setEntries (removeEntry e.gsn s.conf.entries)) h
    · split <;> exact h
  · split
    · exact rises_journal (s := s.confirmEntry e) h
    · split <;> exact h

theorem rises_applyOutcome {x : Bool} (h : s.ReceivedRises) : (s.applyOutcome x).st.ReceivedRises := by
  unfold State.applyOutcome
  dsimp only
  split
  · exact h
  · split
    · exact rises_confirmed h
    · exact h

theorem rises_foundResult {f : FrameBody} {x : Bool} (h : b.st.ReceivedRises) : (b.foundResult f x).st.ReceivedRises := by
  unfold Batch.foundResult
  split
  · exact h
  · split
    · refine rises_enterGroup (rises_of_standing (s := b.st.setDir b.st.dir.found) h ?_)
      exact standing_postAll _
    · exact h

theorem rises_joinResult {f : FrameBody} {x : Bool} (h : b.st.ReceivedRises) : (b.joinResult f x).st.ReceivedRises := by
  unfold Batch.joinResult
  repeat' split
  all_goals exact h

theorem rises_memberResult {f : FrameBody} {x : Bool} (h : b.st.ReceivedRises) :
    (b.memberResult f x).st.ReceivedRises := by
  unfold Batch.memberResult
  split
  · exact rises_foundResult h
  · exact rises_joinResult h
  · exact rises_leaveResult h
  · exact rises_of_standing h (standing_presenceResult _)
  · exact h

theorem rises_deliver {c : Observed} {r : Bool} (h : b.st.ReceivedRises) : (b.deliver c r).st.ReceivedRises := by
  unfold Batch.deliver
  split
  · exact h
  · have own : (if c = .none then (b.on fun s => s.setSel { s.sel with inFlight := none }).on State.ownConfirmed
        else b.on fun s => s.setSel { s.sel with inFlight := none }).st.ReceivedRises := by
      split
      · exact rises_of_standing h (standing_ownConfirmed _)
      · exact h
    dsimp only
    generalize (if c = .none then (b.on fun s => s.setSel { s.sel with inFlight := none }).on State.ownConfirmed
        else b.on fun s => s.setSel { s.sel with inFlight := none }) = d at own ⊢
    split
    · exact own
    · split
      · split <;> exact own
      · exact rises_memberResult own
      · exact rises_of_seeks own (Seeks.refl _).fetchResult
      · exact rises_of_standing own (standing_respResult _)
      · exact rises_of_standing own ((standing_finishDeparture _).trans (standing_recordResult _))

theorem rises_presenceWork {k : Station} {p : Nat} {c : Check} (h : s.ReceivedRises) :
    (s.presenceHeard k p c).1.ReceivedRises := rises_journal (rises_of_standing h (standing_checkDivergence _))

theorem rises_peerLeft {k : Station} (h : b.st.ReceivedRises) : (b.peerLeft k).st.ReceivedRises := by
  have r : (b.on fun s => match s.cat.responder with
      | some r => if r.requester = k then s.endResponder else s
      | none => s).st.ReceivedRises := by
    dsimp only [Batch.on]
    split
    · split
      · exact rises_of_standing h (standing_endResponder _)
      · exact h
    · exact h
  unfold Batch.peerLeft
  dsimp only
  generalize (b.on fun s => match s.cat.responder with
      | some r => if r.requester = k then s.endResponder else s
      | none => s) = d at r ⊢
  split
  · split
    · split
      · exact rises_of_seeks r (Pursues.refl d).timeOut.seeks
      · exact r
    · exact r
  · exact r

theorem rises_handMember {k : Station} {f : FrameBody} {x : Bool} {l : List Nat} (h : b.st.ReceivedRises) :
    (b.handMember k f x l).st.ReceivedRises := by
  have heard : (b.on fun s => s.peerHeard k f).st.ReceivedRises := rises_of_standing h (standing_peerHeard _)
  unfold Batch.handMember
  dsimp only
  generalize (b.on fun s => s.peerHeard k f) = d at heard ⊢
  split
  · next p _ check _ =>
    refine rises_of_seeks (rises_presenceWork (k := k) (p := p) (c := check) heard) ?_
    exact (Seeks.refl _).applyRetired.trans
      (Pursues.refl (d.on fun _ => State.applyRetired _ _)).recheck.presenceHeard.seeks
  · exact rises_peerLeft heard
  · split
    · exact rises_of_standing heard (standing_takeFetch _)
    · exact heard
  · split
    · exact rises_of_seeks heard (Pursues.refl d).goneHeard.seeks
    · exact heard
  · split
    · exact rises_replayHeard heard
    · exact heard
  · exact rises_of_seeks heard (Seeks.refl _).applyRetired
  all_goals exact heard

theorem rises_handOn {c : Option Classified} {x : Bool} {l : List Nat} (h : b.st.ReceivedRises) :
    (b.handOn c x l).st.ReceivedRises := by
  unfold Batch.handOn
  split
  · split
    · exact rises_handMember h
    · split
      · exact rises_groupHeard h
      · exact h
  · exact h

theorem rises_afterOutcome {n : Nat} (h : b.st.ReceivedRises) : (b.afterOutcome n).st.ReceivedRises := by
  have checked := rises_of_seeks h (Pursues.refl b).recheck.seeks
  refine rises_of_seeks (rises_of_standing checked ?_) (Pursues.refl (b.recheck.on _)).followGaps.seeks
  dsimp only [Batch.on]
  split <;> simp

theorem rises_closeJudged {w : WindowRun} {c : Observed} (h : s.ReceivedRises) : (s.closeJudged w c).st.ReceivedRises := by
  have outcome : (((s.setFilter { s.filter with window := none }).applyOutcome (decide (c = .none))).st.countBudget
      c).ReceivedRises :=
    rises_of_standing (rises_applyOutcome (s := s.setFilter { s.filter with window := none }) h) (standing_countBudget _)
  unfold State.closeJudged
  dsimp only
  generalize (s.setFilter { s.filter with window := none }).applyOutcome (decide (c = .none)) = o at outcome ⊢
  generalize o.st.countBudget c = u at outcome ⊢
  have start : u.batch.st.ReceivedRises := outcome
  split
  · refine rises_enterFault ?_
    split
    · exact rises_deliver start
    · exact start
  · refine rises_afterOutcome ?_
    split
    · exact rises_of_seeks (rises_deliver start) (Seeks.refl _).applyRetired
    · split
      · exact rises_handOn start
      · exact start

theorem rises_closeOverlapping {w : WindowRun} {c : Observed} (h : s.ReceivedRises) :
    (s.closeOverlapping w c).st.ReceivedRises := by
  unfold State.closeOverlapping
  split
  · exact rises_afterOutcome (rises_deliver (b := s.batch) h)
  · exact h

theorem rises_finish (h : b.st.ReceivedRises) : b.finish.ReceivedRises :=
  rises_of_standing (rises_flush (rises_of_seeks h (Pursues.refl b).recheck.followGaps.seeks)) (standing_settle _)

/-! ## The station state at departures -/

theorem clearContexts_st : b.clearContexts.st.mem.st = b.st.mem.st := by
  have e : (b.on State.endResponder).st.mem.st = b.st.mem.st := standing_st (standing_endResponder _)
  unfold Batch.clearContexts Batch.endRequester
  split
  · exact e
  · exact (standing_st (standing_discardFlight _)).trans e

theorem requestDrain_st : s.requestDrain.mem.st = s.mem.st := rfl

theorem resetPeers_st : s.resetPeers.mem.st = s.mem.st := rfl

theorem on_st {f : State → State} : (b.on f).st = f b.st := rfl

theorem endGroupPart_st : b.endGroupPart.st.mem.st = b.st.mem.st := by
  simp only [Batch.endGroupPart, on_st, requestDrain_st, resetPeers_st, clearContexts_st]
  exact standing_st (by simp)

theorem enterFault_st : b.enterFault.st.mem.st = .fault := by
  simp only [Batch.enterFault, on_st, standing_st (standing_switchTo _), requestDrain_st, resetPeers_st, clearContexts_st]
  exact standing_st (s := (b.enter .fault).st) (by simp)

theorem duplicateFound_st : s.duplicateFound.mem.st = .fault :=
  (standing_st (standing_postAll _)).trans enterFault_st

end

end Sys2Proof.Proofs
end

section
/-! What every command upholds: the record array, the window's shape, the counts of the slots, the filled window, the station
state by the gap count, the order of the received set. One lemma per command. -/

namespace Sys2Proof.Proofs

open Sys2Proof Sys2Proof.Machine

/-- The command gives a next state that stands in a relation to the state before it. -/
def Reaches (r : State → State → Prop) (o : Host.Outcome State Fault Refusal) (s : State) : Prop :=
  ∃ t, o = .next t ∧ r s t

/-- A command that has no effect while RESET_N is low. -/
theorem Reaches.act {r : State → State → Prop} {s : State} {f : State → State} (refl : r s s) (h : r s (f s)) :
    Reaches r (s.act f) s := by
  unfold State.act
  split
  · exact ⟨s, rfl, refl⟩
  · exact ⟨f s, rfl, h⟩

/-! ## The station state by the gap count, the order of the received set -/

/-- From `s` to `t` R106 and the order of R120 are kept. -/
structure Steady (s t : State) : Prop where
  gaps : s.StateFollowsGaps → t.StateFollowsGaps
  rises : s.ReceivedRises → t.ReceivedRises

theorem follows_of_counts {s t : State} (h : s.StateFollowsGaps) (st : t.mem.st = s.mem.st)
    (gc : t.dir.gapCount = s.dir.gapCount) : t.StateFollowsGaps := by
  unfold State.StateFollowsGaps
  rw [st, gc]
  exact h

theorem follows_of_standing {s t : State} (h : s.StateFollowsGaps) (e : standing t = standing s) : t.StateFollowsGaps :=
  follows_of_counts h (standing_st e) (congrArg Directory.gapCount (standing_dir e))

/-- Outside SYNCING and MEMBER the station state asks nothing of the gap count. -/
theorem follows_outside {t : State} {x : StationState} (e : t.mem.st = x) (m : x ≠ .member := by decide)
    (y : x ≠ .syncing := by decide) : t.StateFollowsGaps := ⟨fun k => absurd (e.symm.trans k) m, fun k => absurd (e.symm.trans k) y⟩

namespace Steady

variable {s t u : State}

theorem refl (s : State) : Steady s s := ⟨id, id⟩

theorem of_standing (e : standing t = standing s) : Steady s t :=
  ⟨fun h => follows_of_standing h e, fun h => rises_of_standing h e⟩

/-- A command that ends in a state that follows the gaps whatever came before. -/
theorem anew (f : t.StateFollowsGaps) (r : s.ReceivedRises → t.ReceivedRises) : Steady s t := ⟨fun _ => f, r⟩

theorem from_standing (h : Steady t u) (e : standing t = standing s) : Steady s u :=
  ⟨fun k => h.gaps (follows_of_standing k e), fun k => h.rises (rises_of_standing k e)⟩

theorem then_standing (h : Steady s t) (e : standing u = standing t) : Steady s u :=
  ⟨fun k => follows_of_standing (h.gaps k) e, fun k => rises_of_standing (h.rises k) e⟩

theorem ite {c : Prop} [Decidable c] (h : c → Steady s t) (k : ¬c → Steady s u) : Steady s (if c then t else u) := by
  split
  · exact h ‹_›
  · exact k ‹_›

end Steady

theorem finish_follows (b : Batch) : b.finish.StateFollowsGaps :=
  follows_of_standing (followGaps_follows b.recheck) ((standing_settle _).trans (standing_postAll _))

section
variable (s : State)

/-- An event of one station that leaves station state, directory and requester context alone. -/
theorem Reaches.still {f : State → State} (e : standing (f s) = standing s) : Reaches Steady (s.act f) s :=
  .act (.refl s) (.of_standing e)

/-! ## Bus events -/

theorem frameStart_steady : Reaches Steady (execFrameStart s) s := by
  refine .still s ?_
  unfold State.frameStarts
  repeat' split
  all_goals simp

theorem syncWaitEnd_steady : Reaches Steady (execSyncWaitEnd s) s := by
  refine .still s ?_
  split <;> simp

theorem ownFrameStart_steady : Reaches Steady (execOwnFrameStart s) s := by
  refine .still s ?_
  repeat' split
  all_goals simp

theorem leaveLost_rises {b : Batch} (h : b.st.ReceivedRises) : b.leaveLost.st.ReceivedRises := by
  unfold Batch.leaveLost
  split
  · split
    · exact rises_endGroupPart h
    · exact h
  · exact h

theorem arbitrationLost_steady : Reaches Steady (execArbitrationLost s) s := by
  refine .act (.refl s) ?_
  dsimp only
  split
  · next r f _ _ =>
    refine .anew (follows_of_standing (followGaps_follows _) ((standing_settle _).trans (standing_postAll _))) fun h => ?_
    refine rises_of_standing (rises_flush (rises_of_seeks (leaveLost_rises ?_) (Pursues.refl _).recheck.followGaps.seeks))
      (standing_settle _)
    exact rises_of_standing (s := s.returnOffer f) (rises_of_standing h (standing_returnOffer s)) rfl
  · exact .refl s

theorem readbackFailure_steady : Reaches Steady (execReadbackFailure s) s := by
  refine .still s ?_
  dsimp only
  split <;> rfl

theorem duplicateFound_steady : Steady s s.duplicateFound.settle :=
  (Steady.anew (follows_outside duplicateFound_st) rises_duplicateFound).then_standing (standing_settle _)

theorem duplicateStation_steady : Reaches Steady (execDuplicateStation s) s := by
  refine .act (.refl s) ?_
  split
  · exact .ite (fun _ => duplicateFound_steady s) fun _ => .refl s
  · exact .refl s

theorem frameEnds_steady (r : ReceiveRecord) (due : Nat) : Steady s (s.frameEnds r due) :=
  Steady.ite (fun _ => (duplicateFound_steady (s.at due)).from_standing rfl) fun _ => .of_standing (by simp)

theorem frameEnd_steady (b : List Byte) (l : List FramingLevels) : Reaches Steady (execFrameEnd b l s) s := by
  refine .act (.refl s) ?_
  dsimp only
  split
  · exact .ite (fun _ => frameEnds_steady s _ _) fun _ => .refl s
  · exact .refl s

theorem frameTruncated_steady (b : List Byte) (l : List FramingLevels) : Reaches Steady (execFrameTruncated b l s) s := by
  refine .act (.refl s) ?_
  dsimp only
  split
  · exact .ite (fun _ => frameEnds_steady s _ _) fun _ => .refl s
  · exact .refl s

theorem windowOpen_steady : Reaches Steady (execWindowOpen s) s := by
  refine .still s ?_
  split <;> simp

theorem objectionPullEnd_steady : Reaches Steady (execObjectionPullEnd s) s := by
  refine .still s ?_
  dsimp only
  split <;> simp

theorem afterOutcome_follows (b : Batch) (n : Nat) : (b.afterOutcome n).st.StateFollowsGaps := followGaps_follows _

theorem closeJudged_follows (w : WindowRun) (c : Observed) : (s.closeJudged w c).st.StateFollowsGaps := by
  unfold State.closeJudged
  dsimp only
  split
  · exact follows_outside enterFault_st
  · exact afterOutcome_follows _ _

theorem closeOverlapping_steady (w : WindowRun) (c : Observed) : Steady s (s.closeOverlapping w c).st := by
  refine ⟨fun h => ?_, rises_closeOverlapping⟩
  unfold State.closeOverlapping
  split
  · exact afterOutcome_follows _ _
  · exact h

theorem closeWindow_steady (w : WindowRun) (rest : List WindowRun) (n : Nat) : Steady s (s.closeWindow w rest n) := by
  unfold State.closeWindow
  dsimp only
  generalize h : (if w.faultyRun n = true then _ else _ : State) = u
  have start : standing u = standing s := by
    rw [← h]
    split <;> simp
  refine .then_standing (t := (if w.overlapping = true then u.closeOverlapping w (w.observed n)
    else u.closeJudged w (w.observed n)).st) ?_ ?_
  · split
    · have k := closeOverlapping_steady u w (w.observed n)
      exact ⟨fun f => k.gaps (follows_of_standing f start), fun r => k.rises (rises_of_standing r start)⟩
    · exact .anew (closeJudged_follows u w _) fun r => rises_closeJudged (rises_of_standing r start)
  · rw [standing_settle, standing_finishSwitch]
    exact standing_postAll _

theorem windowEnd_steady (n : Nat) : Reaches Steady (execWindowEnd n s) s := by
  refine .act (.refl s) ?_
  split
  · exact .ite (fun _ => closeWindow_steady s _ _ _) fun _ => .refl s
  · exact .refl s

theorem separationEnd_steady : Reaches Steady (execSeparationEnd s) s := by
  refine .still s ?_
  dsimp only
  split
  · split <;> simp
  · rfl

theorem dataLineFault_steady : Reaches Steady (execDataLineFault s) s := by
  refine .still s ?_
  split <;> simp

theorem faultWaitEnd_steady : Reaches Steady (execFaultWaitEnd s) s := by
  refine .still s ?_
  dsimp only
  split <;> simp

theorem objectionLineFault_steady : Reaches Steady (execObjectionLineFault s) s := by
  refine .still s ?_
  split <;> simp

theorem objectionLineRecovery_steady : Reaches Steady (execObjectionLineRecovery s) s := by
  refine .still s ?_
  dsimp only
  split <;> simp

/-! ## Timers -/

theorem listenTimerExpiry_steady : Reaches Steady (execListenTimerExpiry s) s := by
  refine .act (.refl s) ?_
  dsimp only
  split
  · next t _ _ =>
    have founding : ∀ v : Membership, Steady s (((s.at t).setMem v).enter .founding) := fun v =>
      .anew (follows_outside (x := .founding) rfl) fun h => h
    exact (founding _).then_standing ((standing_settle _).trans (standing_reoffer _))
  · exact .refl s

theorem enterListening_steady : Steady s s.enterListening := .anew (follows_outside (x := .listening) rfl) rises_enterListening

theorem joinWaitExpiry_steady : Reaches Steady (execJoinWaitExpiry s) s := by
  refine .act (.refl s) ?_
  split
  · exact ((enterListening_steady (s.at _)).then_standing (standing_settle _)).from_standing rfl
  · exact .refl s

theorem leaveTimerExpiry_steady : Reaches Steady (execLeaveTimerExpiry s) s := by
  refine .act (.refl s) ?_
  dsimp only
  split
  · next leaving _ =>
    split
    · next t _ =>
      refine .ite (fun _ => .of_standing (by simp)) fun _ => ?_
      refine Steady.then_standing (t := (s.at t).batch.endGroupPart.st)
        (.anew (follows_outside (endGroupPart_st.trans leaving)) (rises_endGroupPart (b := (s.at t).batch))) ?_
      rw [standing_settle]
      exact standing_postAll _
    · exact .refl s
  · exact .refl s

theorem heartbeatTick_steady : Reaches Steady (execHeartbeatTick s) s := by
  refine .act (.refl s) ?_
  dsimp only
  split
  · refine .anew (finish_follows _) fun h => rises_finish (rises_of_standing h ?_)
    dsimp only [State.batch]
    split <;> simp
  · exact .refl s

theorem peerSilent_steady (k : Station) : Reaches Steady (execPeerSilent k s) s :=
  .act (.refl s) (.ite (fun _ => .anew (finish_follows _) fun h =>
    rises_finish (b := (s.silence k).batch) (rises_of_standing h (standing_silence s))) fun _ => .refl s)

theorem presenceTimerExpiry_steady : Reaches Steady (execPresenceTimerExpiry s) s := by
  refine .still s ?_
  dsimp only
  repeat' split
  all_goals simp

theorem quietMarkExpiry_steady (k : Station) : Reaches Steady (execQuietMarkExpiry k s) s := by
  refine .still s ?_
  dsimp only
  split <;> simp [Membership.setPeer]

theorem staleWaitEnd_steady : Reaches Steady (execStaleWaitEnd s) s := by
  refine .still s ?_
  repeat' split
  all_goals simp

theorem backoffEnd_steady : Reaches Steady (execBackoffEnd s) s := by
  refine .still s ?_
  repeat' split
  all_goals simp

theorem catchUpDeadline_steady : Reaches Steady (execCatchUpDeadline s) s := by
  refine .act (.refl s) ?_
  split
  · next t _ =>
    exact .anew (finish_follows _) fun h => rises_finish
      (rises_of_seeks (s := (s.at t).batch.st) h (Pursues.refl _).timeOut.seeks)
  · exact .refl s

theorem responderBackoffEnd_steady : Reaches Steady (execResponderBackoffEnd s) s := by
  refine .still s ?_
  repeat' split
  all_goals simp

theorem drainComplete_steady : Reaches Steady (execDrainComplete s) s :=
  .act (.refl s) (.ite (fun _ => .anew (finish_follows _) fun h =>
    rises_finish (rises_drained (b := (s.setConf { s.conf with drain := false }).batch) h)) fun _ => .refl s)

/-! ## Grants, reads, sweeps, hold -/

theorem commitWriteGrant_steady : Reaches Steady (execCommitWriteGrant s) s := by
  refine .still s ?_
  repeat' split
  all_goals simp

theorem replayReadGrant_steady : Reaches Steady (execReplayReadGrant s) s := by
  refine .still s ?_
  repeat' split
  all_goals simp

theorem replayReadComplete_steady : Reaches Steady (execReplayReadComplete s) s := by
  refine .still s ?_
  split <;> simp

theorem sweepSliceGrant_steady : Reaches Steady (execSweepSliceGrant s) s := by
  refine .still s ?_
  dsimp only
  split <;> simp

theorem sweepSliceComplete_steady : Reaches Steady (execSweepSliceComplete s) s := by
  refine .still s ?_
  dsimp only
  split <;> simp

theorem intervalTimerExpiry_steady : Reaches Steady (execIntervalTimerExpiry s) s := by
  refine .still s ?_
  dsimp only
  split <;> simp

theorem pullIn_steady : Reaches Steady (execPullIn s) s := by
  refine .still s ?_
  repeat' split
  all_goals simp

theorem portQuietPullIn_steady : Reaches Steady (execPortQuietPullIn s) s := by
  refine .still s ?_
  repeat' split
  all_goals simp

theorem holdTimerExpiry_steady : Reaches Steady (execHoldTimerExpiry s) s := by
  refine .still s ?_
  dsimp only
  repeat' split
  all_goals simp

theorem internalPassGrant_steady : Reaches Steady (execInternalPassGrant s) s := by
  refine .still s ?_
  dsimp only
  split <;> simp

theorem internalPassComplete_steady : Reaches Steady (execInternalPassComplete s) s := by
  refine .still s ?_
  dsimp only
  split <;> simp

theorem exitPassGrant_steady : Reaches Steady (execExitPassGrant s) s := by
  refine .still s ?_
  split <;> simp

theorem exitPassComplete_steady : Reaches Steady (execExitPassComplete s) s := by
  refine .act (.refl s) (.ite (fun _ => ?_) fun _ => .refl s)
  exact ((enterListening_steady (s.at s.portEnds).freePort.restartEngine).then_standing
    (standing_settle _)).from_standing rfl

/-! ## Writes -/

/-- R72: a late write turns a FILLING slot COMMITTED, which counts neither as GAP before nor after. -/
theorem commitSlot_gapCount (e : PendEntry) : (s.commitSlot e).dir.gapCount = s.dir.gapCount := by
  unfold State.commitSlot
  split
  · next i k =>
    have filling : ∃ j, s.dir.slotAt (slotOf e.gsn) = some (.filling e.gsn j) := by
      unfold Directory.fillingInfo at k
      split at k
      · next g j h =>
        obtain ⟨at_slot, rfl⟩ := (Directory.held_eq _ _ _).1 h
        exact ⟨j, at_slot⟩
      · cases k
    obtain ⟨j, at_slot⟩ := filling
    rw [standing_dir (standing_postCommitted _)]
    simp [Directory.put, Directory.setSlot, Slot.gsn, at_slot, isGapSlot]
  · rfl

theorem commitSlot_beside (e : PendEntry) :
    (s.commitSlot e).mem.st = s.mem.st ∧ (s.commitSlot e).cat.requester = s.cat.requester := by
  unfold State.commitSlot
  split
  · next i _ =>
    have posted := standing_postCommitted (s.setDir (s.dir.put (.committed e.gsn i))) (e := e)
    exact ⟨(standing_st posted :), (standing_requester posted :)⟩
  · exact ⟨rfl, rfl⟩

theorem finishLate_steady (w : CurrentWrite) : Steady s (s.finishLate w) := by
  unfold State.finishLate
  split
  · next e _ =>
    obtain ⟨st, req⟩ := commitSlot_beside s e
    exact ⟨fun h => follows_of_counts h st (commitSlot_gapCount s e), fun h => rises_of_requester h req⟩
  · exact .refl s

theorem completeLate_steady (w : CurrentWrite) : Steady s (s.completeLate w) :=
  ((finishLate_steady (s.endWrite w) w).then_standing
    ((standing_settle _).trans (standing_respSettle _))).from_standing (standing_endWrite s)

theorem finishEarly_steady (w : CurrentWrite) : Steady s (s.finishEarly w) := by
  unfold State.finishEarly
  split
  · dsimp only
    split
    · exact .of_standing (by simp)
    · split
      · exact .anew (finish_follows _) fun h => rises_finish (b := State.batch _) h
      · exact .of_standing (by simp)
  · exact .of_standing (by simp)

end

/-! ## Everything that a command upholds -/

/-- From `s` to `t` the bytes of the record array stay, and the invariants of the directory, of R106 and of R120 are kept. -/
structure Upholds (s t : State) : Prop where
  array : t.array = s.array
  shaped : s.WindowShaped → t.WindowShaped
  counted : s.dir.Counted → t.dir.Counted
  filled : s.WindowShaped → s.dir.Filled → t.dir.Filled
  steady : Steady s t

namespace Upholds

variable {s t u : State}

theorem refl (s : State) : Upholds s s := ⟨rfl, id, id, fun _ => id, .refl s⟩

theorem of_internal (h : Internal s t) (k : Steady s t) : Upholds s t :=
  ⟨congrArg Fixed.array h.fixed, h.shaped, h.counted, h.filled, k⟩

/-- What changes beside array, START parameters, station state, directory and requester context is of no matter. -/
theorem beside (h : Upholds s t) (a : u.array = t.array) (p : u.params = t.params) (e : standing u = standing t) :
    Upholds s u := by
  have d := standing_dir e
  refine ⟨a.trans h.array, fun k => ?_, fun k => d ▸ h.counted k, fun w k => d ▸ h.filled w k, h.steady.then_standing e⟩
  obtain ⟨depth, shape⟩ := h.shaped k
  exact ⟨by rw [State.DepthInRange, p]; exact depth, d ▸ shape⟩

theorem answer {a : Answer} (h : Upholds s t) : Upholds s (t.answer a) := h.beside rfl rfl rfl

theorem follows (h : Upholds s t) (k : Follows t u) : Upholds s u :=
  h.beside (by rw [k.same]) (by rw [k.same]) (standing_of_follows t k)

theorem settle (h : Upholds s t) : Upholds s t.settle := h.follows (.settle t)

theorem settleSend (h : Upholds s t) : Upholds s t.settleSend := h.follows (.settleSend t)

/-- A command transaction in phase IDLE or not (R169). -/
theorem transaction {n : Nat} {f : State → State} (h : ∀ u : State, Upholds u (f u)) : Upholds s (s.transaction n f) := by
  have out : Upholds s (s.shiftOut [] n) := (refl s).beside rfl rfl rfl
  unfold State.transaction
  dsimp only
  split
  · have k := h (s.shiftOut [] n)
    exact ⟨k.array, k.shaped, k.counted, k.filled, k.steady.from_standing rfl⟩
  · exact out

end Upholds

/-- A command whose working is internal. -/
theorem upholds_of_works {o : Host.Outcome State Fault Refusal} {s : State} (w : Works o s) (k : Reaches Steady o s) :
    Reaches Upholds o s := by
  obtain ⟨due, t, e, i⟩ := w
  obtain ⟨u, e', k⟩ := k
  obtain rfl : t = u := by rw [e] at e'; cases e'; rfl
  exact ⟨t, e, congrArg Fixed.array i.fixed, i.shaped, i.counted, i.filled, k⟩

section
variable (s : State)

/-- A command transaction out of or in reset. -/
theorem Reaches.transaction {n : Nat} {f : State → State} (h : ∀ u : State, Upholds u (f u)) :
    Reaches Upholds (s.act fun s => s.transaction n f) s := .act (.refl s) (.transaction h)

theorem enterListening_upholds : Upholds s s.enterListening :=
  .of_internal (Internal.refl s).enterListening (enterListening_steady s)

/-- R172: a history depth that START accepts is at most 4,095. -/
theorem startParams_depth {a b c d f : Byte} {e : BitVec 16} {v : StartParams} (h : startParams a b c d e f = some v) :
    v.historyDepth ≤ 4095 := by
  unfold startParams at h
  split at h
  · split at h
    · next r =>
      cases h
      exact r.2.2.2.1
    · cases h
  · cases h

theorem setParams_upholds {v : StartParams} (h : v.historyDepth ≤ 4095) : Upholds s (s.setParams (some v)) :=
  ⟨rfl, fun k => ⟨fun p e => by cases e; exact h, k.2⟩, id, fun _ => id, .of_standing rfl⟩

theorem start_upholds (a b c d : Byte) (e : BitVec 16) (f : Byte) : Reaches Upholds (execStart a b c d e f s) s := by
  refine .transaction s fun s => ?_
  unfold State.takeStart
  split
  · exact (Upholds.refl s).answer
  · split
    · exact (Upholds.refl s).answer
    · next v h =>
      split
      · exact (Upholds.refl s).answer
      · have k := setParams_upholds s (startParams_depth h)
        have l := enterListening_upholds (s.setParams (some v))
        have both : Upholds s (s.setParams (some v)).enterListening :=
          ⟨l.array, l.shaped ∘ k.shaped, l.counted, fun w => l.filled (k.shaped w), l.steady.gaps, l.steady.rises⟩
        exact both.answer.settle

theorem join_upholds : Reaches Upholds (execJoin s) s := by
  refine .transaction s fun s => ?_
  split
  · exact (enterListening_upholds s).answer.settle
  · exact (Upholds.refl s).answer

theorem submit_upholds (p : List Byte) : Reaches Upholds (execSubmit p s) s := by
  refine .transaction s fun s => ?_
  dsimp only [State.takeSubmit]
  repeat' split
  · exact (Upholds.refl s).answer
  · exact (Upholds.refl s).answer
  · exact (Upholds.refl s).answer
  · refine Upholds.settleSend (Upholds.answer ?_)
    exact (Upholds.refl s).beside rfl rfl rfl

theorem read_upholds (g : BitVec 48) : Reaches Upholds (execRead g s) s := by
  refine .transaction s fun s => ?_
  repeat' split
  · exact (Upholds.refl s).answer
  · exact (Upholds.refl s).answer
  · exact (Upholds.refl s).beside rfl rfl rfl

theorem notice_upholds : Reaches Upholds (execNotice s) s := by
  refine .transaction s fun s => ?_
  unfold State.takeNotice
  split <;> exact (Upholds.refl s).beside rfl rfl rfl

theorem enterLeaving_upholds (r : LeaveReason) : Upholds s (s.enterLeaving r) :=
  .of_internal (Internal.refl s).enterLeaving (.anew (follows_outside (x := .leaving) rfl) rises_enterLeaving)

theorem takeLeave_upholds : Upholds s s.takeLeave := by
  unfold State.takeLeave
  split
  · exact (enterLeaving_upholds s _).answer
  · split
    · exact (Upholds.of_internal (Internal.refl s).detach (.anew (follows_outside (x := .detached) rfl) rises_detach)).answer
    · exact (Upholds.refl s).answer

theorem takeHold_upholds : Upholds s s.takeHold := by
  unfold State.takeHold
  split
  · exact (enterLeaving_upholds s _).answer
  · exact (Upholds.refl s).answer

theorem departure_upholds (c : SlotCommand) {take : State → State} (h : Upholds s (take s)) :
    Upholds s (s.departure c take) := by
  unfold State.departure
  split
  · exact (Upholds.refl s).beside rfl rfl rfl
  · exact h.settle

theorem leave_upholds : Reaches Upholds (execLeave s) s :=
  .transaction s fun s => departure_upholds s _ (takeLeave_upholds s)

theorem hold_upholds : Reaches Upholds (execHold s) s :=
  .transaction s fun s => departure_upholds s _ (takeHold_upholds s)

theorem requestExitPass_internal {s t : State} (h : Internal s t) : Internal s t.requestExitPass := by
  unfold State.requestExitPass
  dsimp only
  refine Internal.place (Internal.setSwp_same ?_ rfl rfl)
  split
  · exact h.withdraw.freePort
  · exact h.withdraw

theorem standing_requestExitPass (s : State) : standing s.requestExitPass = standing s := by
  unfold State.requestExitPass
  dsimp only
  split <;> simp

theorem release_upholds : Reaches Upholds (execRelease s) s := by
  refine .transaction s fun s => ?_
  split
  · have st : (s.enter .resuming).requestExitPass.mem.st = .resuming := standing_st (standing_requestExitPass _)
    have k : Upholds s (s.enter .resuming).requestExitPass :=
      .of_internal (requestExitPass_internal (Internal.refl s).enterState)
        (.anew (follows_outside st) fun h => rises_of_standing (rises_enter h) (standing_requestExitPass _))
    exact k.answer.settle
  · exact (Upholds.refl s).answer

theorem collect_upholds (n : Nat) : Reaches Upholds (execCollect n s) s := by
  refine .act (.refl s) ?_
  unfold State.collect
  repeat' split
  all_goals exact (Upholds.refl s).beside rfl rfl rfl

theorem deferredCommandTaken_upholds : Reaches Upholds (execDeferredCommandTaken s) s := by
  refine .act (.refl s) ?_
  unfold State.takeDeferred
  split
  · exact .refl s
  · split
    · exact (takeLeave_upholds s).settle
    · exact (takeHold_upholds s).settle
    · exact .refl s
    · exact .refl s

theorem localReadGrant_upholds : Reaches Upholds (execLocalReadGrant s) s := by
  refine .act (.refl s) ?_
  dsimp only
  split
  · split
    · refine Upholds.settle ?_
      split <;> exact (Upholds.refl s).beside rfl rfl rfl
    · exact .refl s
  · exact .refl s

theorem localReadComplete_upholds : Reaches Upholds (execLocalReadComplete s) s := by
  refine .act (.refl s) ?_
  split
  · refine Upholds.settle (Upholds.answer ?_)
    exact (Upholds.refl s).beside rfl rfl rfl
  · exact .refl s

theorem temperatureEvaluation_upholds (c : Int) : Reaches Upholds (execTemperatureEvaluation c s) s := by
  refine .act (.refl s) ?_
  split
  · refine (Upholds.refl s).beside ?_ ?_ (by simp)
    all_goals
      unfold State.evaluate State.changeClass
      dsimp only
      repeat' split
      all_goals rfl
  · exact .refl s

theorem resetRelease_upholds (a : StationPins) (b : RatePins) (c : SlicePins) :
    Reaches Upholds (execResetRelease a b c s) s := by
  refine ⟨_, rfl, ?_⟩
  split
  · exact (Upholds.refl s).beside rfl rfl rfl
  · exact .refl s

end

/-- No command but a hardware reset and the completion of a write changes the array, and each keeps the invariants. -/
theorem exec_upholds (c : Instr) (s : State) (notReset : c ≠ .hardwareReset)
    (notLate : c ≠ .commitWriteComplete) (notEarly : c ≠ .earlyWriteComplete) : Reaches Upholds (exec c s) s := by
  cases c with
  | hardwareReset => exact absurd rfl notReset
  | commitWriteComplete => exact absurd rfl notLate
  | earlyWriteComplete => exact absurd rfl notEarly
  | resetRelease a b c => exact resetRelease_upholds s a b c
  | start a b c d e f => exact start_upholds s a b c d e f
  | join => exact join_upholds s
  | submit p => exact submit_upholds s p
  | read g => exact read_upholds s g
  | status => exact .transaction s fun s => (Upholds.refl s).answer
  | peers => exact .transaction s fun s => (Upholds.refl s).answer
  | notice => exact notice_upholds s
  | leave => exact leave_upholds s
  | hold => exact hold_upholds s
  | release => exact release_upholds s
  | malformedCommand o p => exact .transaction s fun s => (Upholds.refl s).answer
  | collect n => exact collect_upholds s n
  | deferredCommandTaken => exact deferredCommandTaken_upholds s
  | localReadGrant => exact localReadGrant_upholds s
  | localReadComplete => exact localReadComplete_upholds s
  | temperatureEvaluation z => exact temperatureEvaluation_upholds s z
  | syncWaitEnd => exact upholds_of_works syncWaitEnd_works (syncWaitEnd_steady s)
  | frameStart => exact upholds_of_works frameStart_works (frameStart_steady s)
  | ownFrameStart => exact upholds_of_works ownFrameStart_works (ownFrameStart_steady s)
  | arbitrationLost => exact upholds_of_works arbitrationLost_works (arbitrationLost_steady s)
  | readbackFailure => exact upholds_of_works readbackFailure_works (readbackFailure_steady s)
  | duplicateStation => exact upholds_of_works duplicateStation_works (duplicateStation_steady s)
  | frameEnd b l => exact upholds_of_works (frameEnd_works b l) (frameEnd_steady s b l)
  | frameTruncated b l => exact upholds_of_works (frameTruncated_works b l) (frameTruncated_steady s b l)
  | windowOpen => exact upholds_of_works windowOpen_works (windowOpen_steady s)
  | objectionPullEnd => exact upholds_of_works objectionPullEnd_works (objectionPullEnd_steady s)
  | windowEnd n => exact upholds_of_works (windowEnd_works n) (windowEnd_steady s n)
  | separationEnd => exact upholds_of_works separationEnd_works (separationEnd_steady s)
  | dataLineFault => exact upholds_of_works dataLineFault_works (dataLineFault_steady s)
  | faultWaitEnd => exact upholds_of_works faultWaitEnd_works (faultWaitEnd_steady s)
  | objectionLineFault => exact upholds_of_works objectionLineFault_works (objectionLineFault_steady s)
  | objectionLineRecovery => exact upholds_of_works objectionLineRecovery_works (objectionLineRecovery_steady s)
  | listenTimerExpiry => exact upholds_of_works listenTimerExpiry_works (listenTimerExpiry_steady s)
  | joinWaitExpiry => exact upholds_of_works joinWaitExpiry_works (joinWaitExpiry_steady s)
  | leaveTimerExpiry => exact upholds_of_works leaveTimerExpiry_works (leaveTimerExpiry_steady s)
  | heartbeatTick => exact upholds_of_works heartbeatTick_works (heartbeatTick_steady s)
  | peerSilent k => exact upholds_of_works (peerSilent_works k) (peerSilent_steady s k)
  | presenceTimerExpiry => exact upholds_of_works presenceTimerExpiry_works (presenceTimerExpiry_steady s)
  | quietMarkExpiry k => exact upholds_of_works (quietMarkExpiry_works k) (quietMarkExpiry_steady s k)
  | staleWaitEnd => exact upholds_of_works staleWaitEnd_works (staleWaitEnd_steady s)
  | backoffEnd => exact upholds_of_works backoffEnd_works (backoffEnd_steady s)
  | catchUpDeadline => exact upholds_of_works catchUpDeadline_works (catchUpDeadline_steady s)
  | responderBackoffEnd => exact upholds_of_works responderBackoffEnd_works (responderBackoffEnd_steady s)
  | drainComplete => exact upholds_of_works drainComplete_works (drainComplete_steady s)
  | commitWriteGrant => exact upholds_of_works commitWriteGrant_works (commitWriteGrant_steady s)
  | replayReadGrant => exact upholds_of_works replayReadGrant_works (replayReadGrant_steady s)
  | replayReadComplete => exact upholds_of_works replayReadComplete_works (replayReadComplete_steady s)
  | sweepSliceGrant => exact upholds_of_works sweepSliceGrant_works (sweepSliceGrant_steady s)
  | sweepSliceComplete => exact upholds_of_works sweepSliceComplete_works (sweepSliceComplete_steady s)
  | intervalTimerExpiry => exact upholds_of_works intervalTimerExpiry_works (intervalTimerExpiry_steady s)
  | pullIn => exact upholds_of_works pullIn_works (pullIn_steady s)
  | portQuietPullIn => exact upholds_of_works portQuietPullIn_works (portQuietPullIn_steady s)
  | holdTimerExpiry => exact upholds_of_works holdTimerExpiry_works (holdTimerExpiry_steady s)
  | internalPassGrant => exact upholds_of_works internalPassGrant_works (internalPassGrant_steady s)
  | internalPassComplete => exact upholds_of_works internalPassComplete_works (internalPassComplete_steady s)
  | exitPassGrant => exact upholds_of_works exitPassGrant_works (exitPassGrant_steady s)
  | exitPassComplete => exact upholds_of_works exitPassComplete_works (exitPassComplete_steady s)

/-- Settles O58, by `exec_upholds`. -/
theorem onlyWritesChangeTheArray : Obligations.OnlyWritesChangeTheArray := by
  intro c s t r l e h
  obtain ⟨u, hu, k⟩ := exec_upholds c s r l e
  obtain rfl : u = t := by rw [h] at hu; cases hu; rfl
  exact k.array

end Sys2Proof.Proofs
end

section
/-! The directory's invariants along every step: the window's shape, the counts of the slots, the filled window, the station state
by the gap count, the order of the received set. -/

namespace Sys2Proof.Proofs

open Sys2Proof Sys2Proof.Machine

/-- From `s` to `t` the invariants of the directory, of R106 and of R120 are kept. -/
structure Keeps (s t : State) : Prop where
  shaped : s.WindowShaped → t.WindowShaped
  counted : s.dir.Counted → t.dir.Counted
  filled : s.WindowShaped → s.dir.Filled → t.dir.Filled
  steady : Steady s t

theorem Upholds.keeps {s t : State} (h : Upholds s t) : Keeps s t := ⟨h.shaped, h.counted, h.filled, h.steady⟩

theorem Keeps.refl (s : State) : Keeps s s := (Upholds.refl s).keeps

/-- R1: every invariant holds anew after a hardware reset. -/
theorem hardwareReset_keeps (s : State) : Keeps s s.hardwareReset :=
  ⟨fun _ => ⟨fun _ h => (nomatch h), fun _ h => (nomatch h)⟩, fun _ => Directory.Counted.reset,
    fun _ _ => Directory.Filled.reset, .anew (follows_outside (x := .unset) rfl) fun _ _ h => (nomatch h)⟩

/-- A write that has reached its cell. -/
theorem keeps_of_writeCell {s t : State} {g : Nat} {p : List Byte} (h : Internal (s.writeCell g p) t) (k : Steady s t) :
    Keeps s t := ⟨h.shaped, h.counted, h.filled, k⟩

theorem commitWriteComplete_keeps (s : State) : Reaches Keeps (execCommitWriteComplete s) s := by
  refine .act (.refl s) ?_
  split
  · next w _ =>
    split
    · exact .refl s
    · exact keeps_of_writeCell (completeLate_internal w) (completeLate_steady s w)
  · exact .refl s

theorem earlyWriteComplete_keeps (s : State) : Reaches Keeps (execEarlyWriteComplete s) s := by
  refine .act (.refl s) ?_
  split
  · next w _ =>
    split
    · exact .refl s
    · split
      · exact keeps_of_writeCell (finishEarly_internal w)
          ((finishEarly_steady (s.endWrite w) w).from_standing (standing_endWrite s))
      · exact keeps_of_writeCell (completeLate_internal w) (completeLate_steady s w)
  · exact .refl s

theorem exec_keeps (c : Instr) (s : State) : Reaches Keeps (exec c s) s := by
  by_cases r : c = .hardwareReset
  · subst r; exact ⟨_, rfl, hardwareReset_keeps s⟩
  by_cases l : c = .commitWriteComplete
  · subst l; exact commitWriteComplete_keeps s
  by_cases e : c = .earlyWriteComplete
  · subst e; exact earlyWriteComplete_keeps s
  obtain ⟨t, h, k⟩ := exec_upholds c s r l e
  exact ⟨t, h, k.keeps⟩

/-- One step keeps the invariants. -/
theorem step_keeps {s t : State} (h : step s = .next t) : Keeps s t := by
  unfold step at h
  split at h
  · cases h
    unfold State.tick
    split
    · exact .refl s
    · exact ⟨id, id, fun _ => id, .of_standing rfl⟩
  · next c rest _ =>
    obtain ⟨u, e, k⟩ := exec_keeps c (s.setPending rest)
    rw [h] at e
    cases e
    exact ⟨k.shaped, k.counted, k.filled, k.steady.from_standing rfl⟩

/-- Settles O55, by `step_keeps`: every command's lemma says that it keeps the window's shape and keeps it filled. -/
theorem stepsKeepTheWindowShaped : Obligations.StepsKeepTheWindowShaped := fun _ _ w h =>
  ⟨(step_keeps h).shaped w, fun f => ⟨(step_keeps h).filled w f, fun e => ((step_keeps h).filled w f).vacant e⟩⟩

/-- Settles O56, by `step_keeps`; what moves gap count or station state ends in a gap report or outside SYNCING and MEMBER. -/
theorem stepsKeepTheSlotsCounted : Obligations.StepsKeepTheSlotsCounted := fun _ _ h =>
  ⟨(step_keeps h).counted, (step_keeps h).steady.gaps, (step_keeps h).steady.rises⟩

end Sys2Proof.Proofs
end

section
/-! The completion of an early write (R73), and of one that counts as late (R72). -/

namespace Sys2Proof.Proofs

open Sys2Proof Sys2Proof.Machine

variable {s t u : State} {w : CurrentWrite} {e : PendEntry}

/-! ## What a completion leaves alone -/

/-- What a write's completion changes, if at all, only at its very start: the current write, the grant, the window and the
frontier, the bus interface. -/
def writeFrame (s : State) : Option CurrentWrite × Option Grant × Option Window × Nat × Bus :=
  (s.conf.write, s.arb.grant, s.dir.window, s.dir.frontier, s.bus)

theorem postAll_eq (s : State) (l : List Notice) : s.postAll l = s.setPort (s.postAll l).port := by
  induction l generalizing s with
  | nil => rfl
  | cons n rest ih => exact ih (s.post n)

theorem writeFrame_postAll (l : List Notice) : writeFrame (s.postAll l) = writeFrame s := by rw [postAll_eq]; rfl

theorem writeFrame_follows (h : Follows s t) : writeFrame t = writeFrame s := by
  have grant := h.grant
  rw [h.same]
  simp [writeFrame, grant]

theorem writeFrame_settle (s : State) : writeFrame s.settle = writeFrame s := writeFrame_follows (.settle s)

theorem writeFrame_seeks (h : Seeks s t) : writeFrame t = writeFrame s := by
  have window := h.window
  have frontier := h.frontier
  rw [h.same]
  simp [writeFrame, window, frontier]

theorem writeFrame_reoffer {who : Sender} {b : FrameBody} : writeFrame (s.reoffer who b) = writeFrame s := by
  unfold State.reoffer
  split <;> rfl

theorem writeFrame_respDecide {r : ResponderCtx} : writeFrame (s.respDecide r) = writeFrame s := by
  unfold State.respDecide State.offerResponse
  split
  · rfl
  · split
    · rw [writeFrame_reoffer]; rfl
    · rfl

theorem writeFrame_respSettle (s : State) : writeFrame s.respSettle = writeFrame s := by
  unfold State.respSettle
  split
  · split
    · split
      · rfl
      · rfl
      · exact writeFrame_respDecide
    · rfl
  · rfl

theorem writeFrame_postCommitted : writeFrame (s.postCommitted e) = writeFrame s := by
  unfold State.postCommitted
  split <;> rfl

theorem writeFrame_finishLate (s : State) (w : CurrentWrite) : writeFrame (s.finishLate w) = writeFrame s := by
  have slot : ∀ e, writeFrame (s.commitSlot e) = writeFrame s := fun e => by
    unfold State.commitSlot
    split
    · rw [writeFrame_postCommitted]; rfl
    · rfl
  unfold State.finishLate
  split
  · next e _ => exact slot e
  · rfl

theorem writeFrame_finish (b : Batch) : writeFrame b.finish = writeFrame b.st :=
  (writeFrame_settle _).trans ((writeFrame_postAll _).trans
    (writeFrame_seeks (Pursues.refl b).recheck.followGaps.seeks))

theorem writeFrame_finishEarly (s : State) (w : CurrentWrite) : writeFrame (s.finishEarly w) = writeFrame s := by
  unfold State.finishEarly
  split
  · dsimp only
    split
    · exact writeFrame_settle _
    · split
      · exact writeFrame_finish _
      · exact writeFrame_settle _
  · exact writeFrame_settle _

theorem writeFrame_completeLate (s : State) (w : CurrentWrite) : writeFrame (s.completeLate w) = writeFrame (s.endWrite w) :=
  (writeFrame_settle _).trans ((writeFrame_respSettle _).trans (writeFrame_finishLate _ _))

/-! ## The cases of an early write's completion (R73) -/

/-- The entry that a write is for, while the write still has one. -/
abbrev writtenEntry (s : State) (w : CurrentWrite) : Option PendEntry :=
  if w.entryPresent then s.conf.entries.find? (fun x => x.gsn == w.gsn) else none

theorem writtenEntry_gsn (h : writtenEntry s w = some e) : e.gsn = w.gsn := by
  unfold writtenEntry at h
  split at h
  · simpa using List.find?_some h
  · cases h

theorem finishEarly_lost (h : writtenEntry s w = none) : s.finishEarly w = s.settle := by
  unfold State.finishEarly
  rw [show (if w.entryPresent then s.conf.entries.find? fun e => e.gsn == w.gsn else none) = none from h]

theorem finishEarly_found (h : writtenEntry s w = some e) : s.finishEarly w =
    if e.live then (s.setEntries (replaceEntry e.gsn (e.withStatus .writtenEarly) s.conf.entries)).settle
    else if s.dir.holdsGap e.gsn then
      ((s.setDir (s.dir.put (.tentative e.gsn e.info))).setEntries
        (replaceEntry e.gsn (e.withStatus .writtenEarly) s.conf.entries)).batch.finish
    else s.settle := by
  unfold State.finishEarly
  rw [show (if w.entryPresent then s.conf.entries.find? fun e => e.gsn == w.gsn else none) = some e from h]

theorem settle_conf (s : State) : s.settle.conf = s.conf := by rw [(Follows.settle s).same]

theorem settle_dir (s : State) : s.settle.dir = s.dir := standing_dir (standing_settle s)

theorem finish_conf (b : Batch) : b.finish.conf = b.st.conf := by
  have seeks := (Pursues.refl b).recheck.followGaps.seeks
  rw [Batch.finish, settle_conf, Batch.flush, postAll_eq, seeks.same]
  rfl

/-- The requester's work gives up GAP slots at most. -/
theorem finish_held (b : Batch) (g : Nat) : b.finish.dir.held g = b.st.dir.held g ∨
    (b.st.dir.held g = some (.gap g) ∧ b.finish.dir.held g = some (.lost g)) := by
  rw [Batch.finish, settle_dir, Batch.flush, standing_dir (standing_postAll _)]
  exact (Pursues.refl b).recheck.followGaps.seeks.held g

/-- R17: the early write of a REPLAY turns its slot TENTATIVE; what follows gives up GAP slots at most. -/
theorem finish_tentative {l : List PendEntry} {g h : Nat} {i : RecordInfo} :
    let t := ((s.setDir (s.dir.put (.tentative g i))).setEntries l).batch.finish
    t.dir.held g = some (.tentative g i) ∧
    (slotOf h ≠ slotOf g → t.dir.held h = s.dir.held h ∨ (s.dir.held h = some (.gap h) ∧ t.dir.held h = some (.lost h))) := by
  intro t
  have work : ∀ h, t.dir.held h = (s.dir.put (.tentative g i)).held h ∨
      ((s.dir.put (.tentative g i)).held h = some (.gap h) ∧ t.dir.held h = some (.lost h)) := finish_held _
  have put : (s.dir.put (.tentative g i)).held g = some (.tentative g i) := held_put_same (x := .tentative g i)
  refine ⟨?_, fun apart => ?_⟩
  · rcases work g with k | ⟨k, _⟩
    · exact k.trans put
    · cases put.symm.trans k
  · have same : (s.dir.put (.tentative g i)).held h = s.dir.held h := held_put_of_apart fun c => apart c.symm
    rw [← same]
    exact work h

/-- R73: entries and directory after an early write's completion whose entry still awaits its window. -/
theorem finishEarly_spec (h : writtenEntry s w = some e) :
    (s.finishEarly w).conf.entries = (if e.live = true ∨ s.dir.held w.gsn = some (.gap w.gsn) then
      replaceEntry w.gsn (e.withStatus .writtenEarly) s.conf.entries else s.conf.entries) ∧
    ((e.live = true ∨ s.dir.held w.gsn ≠ some (.gap w.gsn)) → (s.finishEarly w).dir = s.dir) ∧
    (e.live = false → s.dir.held w.gsn = some (.gap w.gsn) →
      (s.finishEarly w).dir.held w.gsn = some (.tentative w.gsn {
        origin := e.origin, tag := e.tag, length := e.payload.length, check := e.check }) ∧
      ∀ g, slotOf g ≠ slotOf w.gsn →
        (s.finishEarly w).dir.held g = s.dir.held g ∨
          (s.dir.held g = some (.gap g) ∧ (s.finishEarly w).dir.held g = some (.lost g))) := by
  rw [finishEarly_found h, writtenEntry_gsn h]
  cases live : e.live with
  | true =>
    simp only [if_true, true_or, settle_conf, settle_dir, forall_const, reduceCtorEq, false_imp_iff, and_true]
    exact ⟨rfl, rfl⟩
  | false =>
    by_cases gap : s.dir.held w.gsn = some (.gap w.gsn)
    · simp only [(Directory.holdsGap_iff s.dir w.gsn).2 gap, gap, if_true, if_false, reduceCtorEq, or_true, finish_conf, ne_eq,
        not_true_eq_false, or_false, false_imp_iff, true_and, forall_const]
      exact ⟨rfl, finish_tentative (h := w.gsn) |>.1, fun g apart => finish_tentative.2 apart⟩
    · have none : s.dir.holdsGap w.gsn = false := by
        rw [← Bool.not_eq_true, Directory.holdsGap_iff]; exact gap
      simp only [none, gap, if_false, reduceCtorEq, or_false, settle_conf, settle_dir, false_imp_iff, implies_true,
        and_true]

/-! ## The completion -/

/-- What every completion of a write leaves: the payload in its cell, the port free, no current write. -/
structure WriteEnds (s : State) (w : CurrentWrite) (t : State) : Prop where
  outside : ∀ a, a < cellAddress w.gsn ∨ cellAddress w.gsn + w.payload.length ≤ a → arrayRead t.array a = arrayRead s.array a
  inside : arrayReadBytes t.array (cellAddress w.gsn) w.payload.length = w.payload
  write : t.conf.write = none
  grant : t.arb.grant = none
  window : t.dir.window = s.dir.window
  frontier : t.dir.frontier = s.dir.frontier
  now : t.now = s.now
  bus : t.bus = s.bus
  tagCounter : t.out.tagCounter = s.out.tagCounter
  temp : t.temp = s.temp
  straps : t.straps = s.straps
  params : t.params = s.params

theorem writeEnds_of_internal (h : Internal (s.writeCell w.gsn w.payload) t) (k : writeFrame t = writeFrame (s.endWrite w)) :
    WriteEnds s w t := by
  have array : t.array = arrayWriteBytes s.array (cellAddress w.gsn) w.payload := congrArg Fixed.array h.fixed
  simp only [writeFrame, Prod.mk.injEq] at k
  obtain ⟨write, grant, window, frontier, bus⟩ := k
  exact {
    outside := fun a o => by rw [array, arrayRead_writeBytes_outside _ _ _ _ o]
    inside := by rw [array, arrayReadBytes_writeBytes]
    write, grant, window, frontier, bus
    now := congrArg Fixed.now h.fixed
    tagCounter := congrArg Fixed.tagCounter h.fixed
    temp := congrArg Fixed.temp h.fixed
    straps := congrArg Fixed.straps h.fixed
    params := congrArg Fixed.params h.fixed }

theorem completeLate_writeEnds : WriteEnds s w (s.completeLate w) :=
  writeEnds_of_internal (completeLate_internal w) (writeFrame_completeLate s w)

theorem finishEarly_writeEnds : WriteEnds s w ((s.endWrite w).finishEarly w) :=
  writeEnds_of_internal (finishEarly_internal w) (writeFrame_finishEarly _ w)

/-- The completion of a write that holds the port. -/
theorem exec_writeComplete (released : s.resetHeld = false) (holds : s.portOp = some .commitWrite) (write : s.conf.write = some w)
    (early : w.grantedEarly = true) :
    exec .earlyWriteComplete s = .next (if w.early then (s.endWrite w).finishEarly w else s.completeLate w) ∧
    exec .commitWriteComplete s = .next (if w.early then s else s.completeLate w) := by
  have writing : s.writing = some w := by rw [State.writing, if_pos holds, write]
  constructor
  · show execEarlyWriteComplete s = _
    rw [execEarlyWriteComplete, act_released released, writing]
    simp [early]
  · show execCommitWriteComplete s = _
    rw [execCommitWriteComplete, act_released released, writing]

/-- Settles O45, case by case on the entry that the write is for. -/
theorem earlyWriteIsTentative : Obligations.EarlyWriteIsTentative := by
  intro s w released holds write granted found
  obtain ⟨early, late⟩ := exec_writeComplete released holds write granted
  refine ⟨_, early, fun e => by rw [late, e]; rfl, ?_⟩
  have ends : WriteEnds s w (if w.early then (s.endWrite w).finishEarly w else s.completeLate w) := by
    split
    · exact finishEarly_writeEnds
    · exact completeLate_writeEnds
  refine ⟨ends.outside, ends.inside, ends.write, ends.grant, ends.window, ends.frontier, ends.now, ends.bus,
    ends.tagCounter, ends.temp, ends.straps, ends.params, fun e lost => ?_, fun x e present => ?_⟩
  · rw [if_pos e, finishEarly_lost (s := s.endWrite w) lost]
    exact ⟨(congrArg Confirmation.entries (settle_conf (s.endWrite w)) :), settle_dir _⟩
  · rw [if_pos e]
    exact finishEarly_spec (s := s.endWrite w) present

end Sys2Proof.Proofs
end

section
/-! The notices of one event in their order (R20, R131, R133, R179), and the contiguous stretches that a LOST notice reports. -/

namespace Sys2Proof.Proofs

open Sys2Proof Sys2Proof.Machine

/-! ## The runs of a rising list -/

theorem runsOf_first_mem {l : List Nat} {f k : Nat} (h : (f, k) ∈ runsOf l) : f ∈ l := by
  induction l generalizing k with
  | nil => cases h
  | cons a rest ih =>
    rw [runsOf] at h
    split at h
    · next f' k' more e =>
      split at h
      · rcases List.mem_cons.1 h with m | m
        · cases m; exact List.mem_cons_self ..
        · exact List.mem_cons_of_mem _ (ih (e ▸ List.mem_cons_of_mem _ m))
      · rcases List.mem_cons.1 h with m | m
        · cases m; exact List.mem_cons_self ..
        · exact List.mem_cons_of_mem _ (ih (e ▸ m))
    · cases List.mem_singleton.1 h
      exact List.mem_cons_self ..

/-- The runs of a rising list rise. -/
theorem runsOf_rises {l : List Nat} (h : l.Pairwise (· < ·)) : (runsOf l).Pairwise fun x y => x.1 < y.1 := by
  induction l with
  | nil => exact .nil
  | cons a rest ih =>
    obtain ⟨above, rises⟩ := List.pairwise_cons.1 h
    have tail := ih rises
    have later : ∀ x ∈ runsOf rest, a < x.1 := fun x m => above _ (runsOf_first_mem (k := x.2) m)
    rw [runsOf]
    split
    · next f k more e =>
      rw [e] at tail later
      split
      · exact List.pairwise_cons.2 ⟨fun x m => later x (List.mem_cons_of_mem _ m), (List.pairwise_cons.1 tail).2⟩
      · exact List.pairwise_cons.2 ⟨later, tail⟩
    · exact List.pairwise_singleton _ _

theorem runsOf_cons_head {a : Nat} {l : List Nat} : ∃ k more, runsOf (a :: l) = (a, k) :: more := by
  rw [runsOf]
  split
  · split
    · exact ⟨_, _, rfl⟩
    · exact ⟨_, _, rfl⟩
  · exact ⟨_, _, rfl⟩

/-- Above the first GSN of a rising list, a stretch of the list is a stretch of its rest. -/
theorem stretch_rest {a g n : Nat} {rest : List Nat} (h : stretch (· ∈ a :: rest) g n) (above : a < g) :
    stretch (· ∈ rest) g n := by
  obtain ⟨pos, mem, top, bottom⟩ := h
  refine ⟨pos, fun i lt => ?_, fun m => top (List.mem_cons_of_mem _ m), fun x e m => bottom x e (List.mem_cons_of_mem _ m)⟩
  rcases List.mem_cons.1 (mem i lt) with e | m
  · omega
  · exact m

/-- Every contiguous stretch of a rising list is one of its runs. -/
theorem mem_runsOf_of_stretch {l : List Nat} {g n : Nat} (rises : l.Pairwise (· < ·)) (h : stretch (· ∈ l) g n) :
    (g, n) ∈ runsOf l := by
  induction l generalizing g n with
  | nil => exact absurd (h.2.1 0 h.1) List.not_mem_nil
  | cons a rest ih =>
    obtain ⟨above, later⟩ := List.pairwise_cons.1 rises
    obtain ⟨pos, mem, top, bottom⟩ := id h
    have le : a ≤ g := by
      rcases List.mem_cons.1 (mem 0 pos) with e | m
      · omega
      · exact (above _ m).le
    have rises_rest := runsOf_rises later
    rw [runsOf]
    rcases le.lt_or_eq with lt | rfl
    · have tail := ih later (stretch_rest h lt)
      split
      · next f k more e =>
        rw [e] at tail
        split
        · next f_eq =>
          rcases List.mem_cons.1 tail with m | m
          · cases m
            exact absurd (List.mem_cons_self ..) (bottom a f_eq.symm)
          · exact List.mem_cons_of_mem _ m
        · exact List.mem_cons_of_mem _ tail
      · next e => rw [e] at tail; cases tail
    · have single : a + 1 ∉ rest → n = 1 := fun no => by
        by_contra ne
        rcases List.mem_cons.1 (mem 1 (by omega)) with e | m
        · omega
        · exact no m
      cases rest with
      | nil => simp [runsOf, single List.not_mem_nil]
      | cons b more =>
        obtain ⟨k, runs, e⟩ := runsOf_cons_head (a := b) (l := more)
        rw [e] at rises_rest ⊢
        dsimp only
        split
        · next b_eq =>
          subst b_eq
          have two : 2 ≤ n := by
            by_contra lt
            obtain rfl : n = 1 := by omega
            exact top (by simp)
          have inner : stretch (· ∈ (a + 1) :: more) (a + 1) (n - 1) := by
            refine ⟨by omega, fun i lt => ?_, fun m => ?_, fun x eq m => ?_⟩
            · rcases List.mem_cons.1 (mem (i + 1) (by omega)) with eq | m
              · omega
              · rwa [show a + 1 + i = a + (i + 1) by omega]
            · exact top (List.mem_cons_of_mem _ (by rwa [show a + n = a + 1 + (n - 1) by omega]))
            · exact absurd (above x m) (by omega)
          have tail := ih later inner
          rw [e] at tail
          rcases List.mem_cons.1 tail with m | m
          · cases m
            simp [show n - 1 + 1 = n by omega]
          · exact absurd ((List.pairwise_cons.1 rises_rest).1 _ m) (lt_irrefl _)
        · next ne =>
          rw [single fun m => ?_]
          · exact List.mem_cons_self ..
          · rcases List.mem_cons.1 m with eq | m
            · exact ne eq.symm
            · exact absurd ((List.pairwise_cons.1 later).1 _ m) (by have := above b (List.mem_cons_self ..); omega)

theorem lost_mem_lostNotices {l : List Nat} {g n : Nat} (rises : l.Pairwise (· < ·)) (h : stretch (· ∈ l) g n) :
    Notice.lost g n ∈ lostNotices l := List.mem_map.2 ⟨(g, n), mem_runsOf_of_stretch rises h, rfl⟩

theorem eq_lost_of_mem_lostNotices {l : List Nat} {n : Notice} (h : n ∈ lostNotices l) : ∃ g k, n = .lost g k := by
  obtain ⟨r, _, e⟩ := List.mem_map.1 h
  exact ⟨_, _, e.symm⟩

theorem mem_openedNotices {a k : Nat} {n : Notice} :
    n ∈ openedNotices (List.range' a k) ↔ n = .gapOpened a k ∧ 0 < k := by
  cases k with
  | zero => simp [openedNotices]
  | succ k => simp [List.range'_succ, openedNotices]

/-! ## Notices added to the queue -/

/-- The notices posted from `s` to `t`, in order. -/
abbrev Posted (s t : State) (l : List Notice) : Prop := t.port = l.foldl LocalPort.post s.port

theorem posted_postAll (s : State) (l : List Notice) : Posted s (s.postAll l) l := by
  induction l generalizing s with
  | nil => rfl
  | cons n rest ih => exact ih (s.post n)

theorem Posted.trans {s t u : State} {l m : List Notice} (h : Posted s t l) (k : Posted t u m) : Posted s u (l ++ m) := by
  rw [Posted, List.foldl_append, ← h]
  exact k

/-- R179: while none is lost, the notices posted stand behind those before them. -/
theorem notices_postAll (l : List Notice) (s : State) (bounded : s.port.Bounded) (room : s.port.lost < 255)
    (kept : (s.postAll l).port.lost = s.port.lost) : (s.postAll l).port.notices = s.port.notices ++ l := by
  induction l generalizing s with
  | nil => exact (List.append_nil _).symm
  | cons n rest ih =>
    have later : (s.post n).port.lost ≤ (s.postAll (n :: rest)).port.lost :=
      (Internal.refl (s.post n)).postAll.lost ((Internal.refl s).post.bounded bounded)
    by_cases fits : s.port.notices.length < Config.noticeMax
    · have posted : s.port.post n = { s.port with notices := s.port.notices ++ [n] } := if_pos fits
      have lost : (s.post n).port.lost = s.port.lost := (congrArg LocalPort.lost posted :)
      have notices : (s.post n).port.notices = s.port.notices ++ [n] := (congrArg LocalPort.notices posted :)
      have tail := ih (s.post n) ((Internal.refl s).post.bounded bounded) (lost ▸ room) (kept.trans lost.symm)
      show ((s.post n).postAll rest).port.notices = _
      rw [tail, notices, List.append_assoc]
      rfl
    · have posted : s.port.post n = { s.port with lost := min 255 (s.port.lost + 1) } := if_neg fits
      have lost : (s.post n).port.lost = min 255 (s.port.lost + 1) := (congrArg LocalPort.lost posted :)
      omega

theorem added_of_posted {s t : State} {l : List Notice} (h : Posted s t l) (k : allPosted s t) : added s t = l := by
  obtain ⟨bounded, room, kept⟩ := k
  have e : t.port = (s.postAll l).port := Eq.trans h (posted_postAll s l).symm
  rw [added, e, notices_postAll l s bounded room (by rw [← e, kept]), List.drop_left]

/-! ## Kinds of notices -/

/-- The place of a notice in the order of R131 and R133; 0 for the notices that the order does not bind. -/
def noticeRank : Notice → Nat
  | .lost .. => 1
  | .gapFilled .. => 2
  | .state _ => 3
  | _ => 0

/-- A notice that reports no gap, no loss and no station state. -/
def plain (n : Notice) : Prop := noticeRank n = 0 ∧ ∀ g k, n ≠ .gapOpened g k

/-- R131, R133: notices are in order where none of a lower rank follows. -/
theorem gapNoticesInOrder_of_rank {l : List Notice}
    (h : l.Pairwise fun a b => noticeRank b = 0 ∨ noticeRank a ≤ noticeRank b) : gapNoticesInOrder l := by
  refine h.imp fun {a b} k => ?_
  split
  · simp [noticeRank] at k
  · simp [noticeRank] at k
  · simp [noticeRank] at k
  · trivial

/-- Behind notices of rank 1 at most, the owed ones come each kind in its place. -/
theorem gapNoticesInOrder_append {l lost filled states : List Notice} (front : ∀ n ∈ l, noticeRank n ≤ 1)
    (hl : ∀ n ∈ lost, ∃ g k, n = .lost g k) (hf : ∀ n ∈ filled, ∃ g k, n = .gapFilled g k)
    (hs : ∀ n ∈ states, ∃ x, n = .state x) : gapNoticesInOrder (l ++ (lost ++ filled ++ states)) := by
  have early : ∀ n ∈ l ++ lost, noticeRank n ≤ 1 := fun n m => by
    rcases List.mem_append.1 m with m | m
    · exact front n m
    · obtain ⟨_, _, rfl⟩ := hl n m; exact le_rfl
  have two : ∀ n ∈ filled, noticeRank n = 2 := fun n m => by obtain ⟨_, _, rfl⟩ := hf n m; rfl
  have three : ∀ n ∈ states, noticeRank n = 3 := fun n m => by obtain ⟨_, rfl⟩ := hs n m; rfl
  rw [show l ++ (lost ++ filled ++ states) = (l ++ lost) ++ (filled ++ states) by simp]
  refine gapNoticesInOrder_of_rank (List.pairwise_append.2 ⟨List.pairwise_iff_forall_sublist.2 fun {a b} s => ?_,
    List.pairwise_append.2 ⟨List.pairwise_iff_forall_sublist.2 fun {a b} s => ?_,
      List.pairwise_iff_forall_sublist.2 fun {a b} s => ?_, fun a ma b mb => ?_⟩, fun a ma b _ => ?_⟩)
  · have := early a (s.subset (by simp)); omega
  · rw [two a (s.subset (by simp)), two b (s.subset (by simp))]; exact .inr le_rfl
  · rw [three a (s.subset (by simp)), three b (s.subset (by simp))]; exact .inr le_rfl
  · rw [two a ma, three b mb]; exact .inr (by decide)
  · have := early a ma; omega

section
variable {a d : List Notice} {rest : Batch} {r : List Nat} {first stop : Nat}

/-- The notices of an event that opens the GSNs from `first` up to below `stop` and retires those of `r` from GAP. -/
def gapNotices (a d : List Notice) (rest : Batch) (r : List Nat) (first stop : Nat) : List Notice :=
  a ++ (lostNotices r ++ openedNotices (List.range' first (stop - first))) ++ (d ++ (rest.lost ++ rest.filled ++ rest.states))

variable (plain_a : ∀ n ∈ a, plain n) (plain_d : ∀ n ∈ d, plain n) (tidy : Tidy rest)
include plain_a plain_d tidy

theorem gapOpened_mem_gapNotices {g n : Nat} : .gapOpened g n ∈ gapNotices a d rest r first stop ↔
    Notice.gapOpened g n ∈ openedNotices (List.range' first (stop - first)) := by
  have not_plain : ∀ l : List Notice, (∀ n ∈ l, plain n) → Notice.gapOpened g n ∉ l := fun l p m => (p _ m).2 g n rfl
  have not_retired : Notice.gapOpened g n ∉ lostNotices r := fun m => by
    obtain ⟨_, _, e⟩ := eq_lost_of_mem_lostNotices m; cases e
  have not_lost : Notice.gapOpened g n ∉ rest.lost := fun m => by obtain ⟨_, _, e⟩ := tidy.lost _ m; cases e
  have not_filled : Notice.gapOpened g n ∉ rest.filled := fun m => by obtain ⟨_, _, e⟩ := tidy.filled _ m; cases e
  have not_state : Notice.gapOpened g n ∉ rest.states := fun m => by obtain ⟨_, e⟩ := tidy.states _ m; cases e
  simp [gapNotices, not_plain a plain_a, not_plain d plain_d, not_retired, not_lost, not_filled, not_state]

theorem gapNoticesInOrder_gapNotices : gapNoticesInOrder (gapNotices a d rest r first stop) := by
  rw [gapNotices, ← List.append_assoc]
  refine gapNoticesInOrder_append (fun n m => ?_) tidy.lost tidy.filled tidy.states
  simp only [List.mem_append] at m
  rcases m with (m | m | m) | m
  · rw [(plain_a n m).1]; exact Nat.zero_le 1
  · obtain ⟨_, _, rfl⟩ := eq_lost_of_mem_lostNotices m; exact le_rfl
  · rw [(mem_openedNotices.1 m).1]; exact Nat.zero_le 1
  · rw [(plain_d n m).1]; exact Nat.zero_le 1

/-- R7, R10, R20: the gap opened and the stretches retired, as an event reports them. -/
theorem opensAndRetires_of_gapNotices {s t : State} {low : Nat} (rises : r.Pairwise (· < ·))
    (retired : ∀ g, g ∈ r ↔ retiredGap s.dir low g) (h : allPosted s t → added s t = gapNotices a d rest r first stop) :
    opensAndRetires s t low first stop := by
  intro all
  rw [h all]
  have opened := @gapOpened_mem_gapNotices a d rest r first stop plain_a plain_d tidy
  refine ⟨fun g n => ?_, fun g n run => ?_, gapNoticesInOrder_gapNotices plain_a plain_d tidy⟩
  · rw [opened, mem_openedNotices, Notice.gapOpened.injEq]
    omega
  · have same : retiredGap s.dir low = (· ∈ r) := funext fun g => propext (retired g).symm
    have lost := lost_mem_lostNotices rises (same ▸ run)
    refine ⟨by simp [gapNotices, lost], fun x m k => ?_⟩
    have pair := (List.singleton_sublist.2 lost).append (List.singleton_sublist.2 (opened.1 k))
    exact (pair.trans (List.sublist_append_right a _)).trans (List.sublist_append_left _ _)

end

end Sys2Proof.Proofs
end

section
/-! The window's end of a peer's PRESENCE at a station in SYNCING or MEMBER (R10, R20, R132): window and frontier, the notices
of the gap, the catch-up run. -/

namespace Sys2Proof.Proofs

open Sys2Proof Sys2Proof.Machine

/-! ## A PRESENCE above the frontier, with or without a window -/

section
variable {d : Directory} {p g : Nat}

/-- The low after a PRESENCE above the frontier; the PRESENCE's frontier where the window is empty. -/
def presenceLow (v : Option Window) (p : Nat) : Nat :=
  match v with
  | some w => max w.low (p - 4096)
  | none => p

/-- The lowest GSN that a PRESENCE above the frontier opens. -/
def presenceFirst (d : Directory) (p : Nat) : Nat :=
  match d.window with
  | some _ => max d.frontier (presenceLow d.window p)
  | none => p

theorem raised_low {v : Window} : max v.low (p - 1 - 4095) = max v.low (p - 4096) := by omega

theorem presence_dir (above : d.frontier < p) : (d.presence p).dir.frontier = p ∧
    (d.presence p).dir.window = d.window.map fun _ => { low := presenceLow d.window p, high := p - 1 } := by
  cases e : d.window with
  | none => rw [presence_of_empty above e]; exact ⟨rfl, by simp [e]⟩
  | some v => rw [presence_of_window above e]; exact ⟨rfl, by simp [presenceLow, raised_low]⟩

theorem presence_retired (above : d.frontier < p) :
    g ∈ (d.presence p).retired ↔ retiredGap d (presenceLow d.window p) g := by
  unfold retiredGap
  cases e : d.window with
  | none => simp [presence_of_empty above e]
  | some v =>
    rw [presence_of_window above e, raise_retired, raised_low]
    simp [presenceLow]

theorem presence_retired_rises (above : d.frontier < p) : (d.presence p).retired.Pairwise (· < ·) := by
  cases e : d.window with
  | none => rw [presence_of_empty above e]; exact .nil
  | some v =>
    rw [presence_of_window above e]
    exact List.Pairwise.filter _ (List.pairwise_lt_range' (step := 1))

theorem presence_opened (above : d.frontier < p) :
    (d.presence p).opened = List.range' (presenceFirst d p) (p - presenceFirst d p) := by
  cases e : d.window with
  | none => simp [presence_of_empty above e, presenceFirst, e]
  | some v => rw [presence_of_window above e, raise_opened, raised_low]; simp [presenceFirst, presenceLow, e]

end

/-! ## Retired GSNs leave the run (R132) -/

/-- The run of a context holds none of these GSNs. -/
def avoids (l : Nat → Prop) (a n : Nat) (_ : List Nat) : Prop := ∀ g, a ≤ g → g < a + n → ¬ l g

theorem avoids_runAbove {l : List Nat} (rises : l.Pairwise (· < ·)) (a n : Nat) (r : List Nat) :
    avoids (· ∈ l) (runAbove a n l).1 (runAbove a n l).2 r := by
  intro g lo hi m
  have sorted := rises.filter fun g => decide (a ≤ g) && decide (g < a + n)
  have inside : a ≤ g → g < a + n → g ∈ l.filter fun g => decide (a ≤ g) && decide (g < a + n) := fun x y =>
    List.mem_filter.2 ⟨m, by simp [x, y]⟩
  unfold runAbove at lo hi
  split at lo
  · next top e =>
    obtain ⟨front, eq⟩ := List.getLast?_eq_some_iff.1 e
    rw [eq] at sorted inside
    have top_mem := List.mem_of_getLast? e
    simp only [List.mem_filter, Bool.and_eq_true, decide_eq_true_eq] at top_mem
    rw [e] at hi
    simp only at lo hi
    rcases List.mem_append.1 (inside (by omega) (by omega)) with q | q
    · have := (List.pairwise_append.1 sorted).2.2 g q top (by simp)
      omega
    · have := List.mem_singleton.1 q
      omega
  · next e =>
    rw [e] at hi
    have := inside lo hi
    rw [List.getLast?_eq_none_iff.1 e] at this
    cases this

theorem applyRetired_avoids {l : List Nat} (rises : l.Pairwise (· < ·)) (s : State) :
    OfContext (avoids (· ∈ l)) (s.applyRetired l) := by
  intro c h
  unfold State.applyRetired at h
  split at h
  · next e => rw [e] at h; cases h
  · next c' _ =>
    cases h
    exact avoids_runAbove rises c'.first c'.count _

/-! ## What an event leaves alone, and what it posts -/

/-- From `s` to `t` these notices have been posted; the clock, the window and the frontier stand, the requester context keeps
what lasts. -/
structure Tells (l : List Notice) (s t : State) : Prop where
  posted : Posted s t l
  now : t.now = s.now
  window : t.dir.window = s.dir.window
  frontier : t.dir.frontier = s.dir.frontier
  context : ∀ q, Lasting s.dir.window q → OfContext q s → OfContext q t

namespace Tells

variable {s t u : State} {l m : List Notice}

theorem trans (h : Tells l s t) (k : Tells m t u) : Tells (l ++ m) s u :=
  ⟨h.posted.trans k.posted, k.now.trans h.now, k.window.trans h.window, k.frontier.trans h.frontier,
    fun q x o => k.context q (h.window ▸ x) (h.context q x o)⟩

theorem then_silent (h : Tells l s t) (k : Tells [] t u) : Tells l s u := by
  have e := h.trans k
  rwa [List.append_nil] at e

theorem of_seeks (h : Seeks s t) : Tells [] s t :=
  ⟨show t.port = s.port by rw [h.same], by rw [h.same], h.window, h.frontier, h.context⟩

theorem of_standing (e : standing t = standing s) (n : t.now = s.now) (p : Posted s t l) : Tells l s t :=
  ⟨p, n, by rw [standing_dir e], by rw [standing_dir e], fun q _ o c h => o c (standing_requester e ▸ h)⟩

theorem postAll (s : State) (l : List Notice) : Tells l s (s.postAll l) :=
  of_standing (standing_postAll s) (by rw [postAll_eq]; rfl) (posted_postAll s l)

end Tells

section
variable {s t : State}

/-! ## The clock and the port through the event's operations -/

theorem now_of_internal (h : Internal s t) : t.now = s.now := congrArg Fixed.now h.fixed

theorem settle_port (s : State) : s.settle.port = s.port := by rw [(Follows.settle s).same]

theorem finishSwitch_port (s : State) : s.finishSwitch.port = s.port := by
  unfold State.finishSwitch
  split
  · split
    · rfl
    · simp [State.retune, State.setRx]
  · rfl

theorem afterWindow_port (s : State) : s.afterWindow.port = s.port := by
  unfold State.afterWindow
  split
  · rfl
  · split <;> rfl

theorem reoffer_port {who : Sender} {b : FrameBody} : (s.reoffer who b).port = s.port := by
  unfold State.reoffer
  split <;> rfl

theorem respDecide_port {r : ResponderCtx} : (s.respDecide r).port = s.port := by
  unfold State.respDecide State.offerResponse
  split
  · rfl
  · split
    · rw [reoffer_port]; rfl
    · rfl

theorem respSettle_port (s : State) : s.respSettle.port = s.port := by
  unfold State.respSettle
  split
  · split
    · split
      · rfl
      · rfl
      · exact respDecide_port
    · rfl
  · rfl

theorem endStaleWait_port (s : State) : s.endStaleWait.port = s.port := by
  unfold State.endStaleWait
  split
  · split <;> rfl
  · rfl

theorem spendNumbers_tells (s : State) : ∃ l, (∀ n ∈ l, plain n) ∧ Tells l s s.spendNumbers := by
  have dropped : ∀ n ∈ s.out.entries.map (fun e => Notice.dropped e.tag .numbersSpent), plain n := fun n m => by
    obtain ⟨e, _, rfl⟩ := List.mem_map.1 m
    exact ⟨rfl, fun _ _ => Notice.noConfusion⟩
  have standing := standing_spendNumbers s
  have now := now_of_internal (Internal.refl s).spendNumbers
  unfold State.spendNumbers at standing now ⊢
  split at standing
  · next c => rw [if_pos c]; exact ⟨[], fun _ h => (nomatch h), .of_standing rfl rfl rfl⟩
  · next c =>
    rw [if_neg c] at now ⊢
    exact ⟨_, dropped, .of_standing standing now (posted_postAll _ _)⟩

theorem peerHeard_tells (s : State) (k : Station) (b : FrameBody) : ∃ l, (∀ n ∈ l, plain n) ∧ Tells l s (s.peerHeard k b) := by
  have standing := standing_peerHeard s (k := k) (b := b)
  have now := now_of_internal ((Internal.refl s).peerHeard (k := k) (f := b))
  unfold State.peerHeard at standing now ⊢
  dsimp only at standing now ⊢
  split
  · next c =>
    rw [if_pos c] at standing now
    exact ⟨[_], fun n m => List.mem_singleton.1 m ▸ ⟨rfl, fun _ _ => Notice.noConfusion⟩, .of_standing standing now rfl⟩
  · next c =>
    rw [if_neg c] at standing now
    exact ⟨[], fun _ h => (nomatch h), .of_standing standing now rfl⟩

theorem checkDivergence_tells (s : State) (k : Station) (p : Nat) (c : Check) :
    ∃ l, (∀ n ∈ l, plain n) ∧ Tells l s (s.checkDivergence k p c) := by
  have standing := standing_checkDivergence s (k := k) (p := p) (c := c)
  have now := now_of_internal ((Internal.refl s).checkDivergence (k := k) (p := p) (c := c))
  have flag : ∀ u : State, u.flagFault.port = u.port := fun u => by
    unfold State.flagFault
    split <;> rfl
  have port : ∃ l, (∀ n ∈ l, plain n) ∧ Posted s (s.checkDivergence k p c) l := by
    unfold State.checkDivergence
    dsimp only
    split
    · exact ⟨[], fun _ h => (nomatch h), rfl⟩
    · split
      · split
        · exact ⟨[], fun _ h => (nomatch h), flag _⟩
        · exact ⟨[.divergence k (p - 1)], fun n m => List.mem_singleton.1 m ▸ ⟨rfl, fun _ _ => Notice.noConfusion⟩,
            congrArg (LocalPort.post · (.divergence k (p - 1))) (flag _)⟩
      · exact ⟨[], fun _ h => (nomatch h), rfl⟩
  obtain ⟨l, plain_l, posted⟩ := port
  exact ⟨l, plain_l, .of_standing standing now posted⟩

/-! ## The window's end -/

/-- A window at whose end nobody has objected leaves the budget where no FAULT follows (R74). -/
theorem countBudget_none_lt (h : s.conf.budget ≤ 14) : (s.countBudget .none).conf.budget < 16 := by
  have next : ∀ d, nextBudget s.conf.budget d .none ≤ 15 := fun d => by
    unfold nextBudget
    split
    · omega
    · omega
    · omega
    · simp
    · simp
  unfold State.countBudget
  split
  · omega
  · next d _ =>
    have := next d.decision
    dsimp only [setConf_conf]
    split <;> omega

theorem countBudget_port {c : Observed} : (s.countBudget c).port = s.port := by
  unfold State.countBudget
  split <;> rfl

theorem applyOutcome_alone (alone : ∀ d, s.conf.decision = some d → d.hasEntry = false) :
    s.applyOutcome true = { st := s, retired := [], filled := false } := by
  unfold State.applyOutcome
  cases e : s.conf.decision with
  | none => simp
  | some d => simp [alone d e]

/-- R56 to R58: a peer's sound frame without a pending entry is confirmed at a station in SYNCING or MEMBER and handed over. -/
theorem closeJudged_handOn {w : WindowRun} {k : Station} {f : FrameBody} {chk : Check} {sc : Scope} (peer : w.own = false)
    (frame : s.filter.window = some (.sound k f chk sc)) (alone : ∀ d, s.conf.decision = some d → d.hasEntry = false)
    (group : s.inGroup = true) (budget : s.conf.budget ≤ 14) :
    ∃ u, standing u = standing s ∧ u.now = s.now ∧ u.port = s.port ∧
      s.closeJudged w .none = (u.batch.handMember k f false []).afterOutcome s.dir.frontier := by
  have outcome := applyOutcome_alone (s := s.setFilter { s.filter with window := none }) alone
  have counted := countBudget_none_lt (s := s.setFilter { s.filter with window := none }) budget
  refine ⟨(s.setFilter { s.filter with window := none }).countBudget .none, standing_countBudget _,
    now_of_internal (Internal.refl s).setFilter.countBudget, countBudget_port, ?_⟩
  have member : ((s.setFilter { s.filter with window := none }).countBudget .none).batch.st.inGroup = true := by
    rw [inGroup_iff] at group ⊢
    rwa [show ((s.setFilter { s.filter with window := none }).countBudget .none).batch.st.mem.st = s.mem.st from
      standing_st (standing_countBudget _)]
  unfold State.closeJudged
  simp only [decide_true, outcome]
  rw [if_neg fun c => absurd c.2 (Nat.not_le.2 counted)]
  simp only [peer, frame, Batch.handOn]
  rw [if_pos member]
  rfl

/-- The state in which a window's outcome is decided, where no line fault is found: the window has left the bus interface. -/
def afterClosing (s : State) (w : WindowRun) (rest : List WindowRun) : State :=
  let s := s.at w.due
  let s := s.setMem { s.mem with departWait := s.mem.departWait - 1 }
  (s.setBus { s.bus with windows := rest, pull := s.bus.pull.filter fun p => decide (s.now < p.ends) }).afterWindow

theorem closeWindow_judges {w : WindowRun} {rest : List WindowRun} (single : w.overlapping = false) (peer : w.pulled = 0) :
    s.closeWindow w rest 0 = ((afterClosing s w rest).closeJudged w .none).flush.finishSwitch.settle := by
  have quiet : w.faultyRun 0 = false := by simp [WindowRun.faultyRun, single]
  have none : w.observed 0 = .none := by simp [WindowRun.observed, peer, observedOf]
  simp only [State.closeWindow, quiet, none, single]
  rfl

theorem afterWindow_beside (s : State) : s.afterWindow.filter = s.filter ∧ s.afterWindow.conf = s.conf := by
  unfold State.afterWindow
  split
  · exact ⟨rfl, rfl⟩
  · split <;> exact ⟨rfl, rfl⟩

/-- The window's end of a frame that nobody objected to. -/
theorem windowEnd_judges {w : WindowRun} (h : windowEnds s w) (peer : w.pulled = 0) :
    ∃ u, standing u = standing s ∧ u.now = max s.now w.due ∧ u.port = s.port ∧ u.filter = s.filter ∧ u.conf = s.conf ∧
      exec (.windowEnd 0) s = .next ((u.closeJudged w .none).flush.finishSwitch.settle) := by
  obtain ⟨released, head, opened, single, _⟩ := h
  obtain ⟨rest, windows⟩ := List.head?_eq_some_iff.1 head
  refine ⟨afterClosing s w rest, (standing_afterWindow _).trans rfl, now_of_internal (Internal.refl _).afterWindow,
    (afterWindow_port _).trans rfl, (afterWindow_beside _).1.trans rfl, (afterWindow_beside _).2.trans rfl, ?_⟩
  show execWindowEnd 0 s = _
  rw [execWindowEnd, act_released released, windows]
  simp only [opened, if_true, closeWindow_judges single peer]

/-! ## What is posted -/

/-- What a unit's work of a window leaves to be done: plain notices, then the owed ones. -/
theorem afterOutcome_tells {b : Batch} (tidy : Tidy b) (n : Nat) : ∃ d rest, (∀ x ∈ d, plain x) ∧ Tidy rest ∧
    Tells (d ++ (rest.lost ++ rest.filled ++ rest.states)) b.st (b.afterOutcome n).flush := by
  have chased := (Pursues.refl b).recheck
  have answered : Tells [] b.recheck.st b.recheck.st.respSettle :=
    .of_standing (standing_respSettle _) (now_of_internal (Internal.refl _).respSettle) (respSettle_port _)
  have woken : ∀ u : State, Tells [] u (if n < u.dir.frontier then u.endStaleWait else u) := fun u => by
    split
    · exact .of_standing (standing_endStaleWait _) (now_of_internal (Internal.refl _).endStaleWait) (endStaleWait_port _)
    · exact .of_standing rfl rfl rfl
  obtain ⟨d, plain_d, spent⟩ := spendNumbers_tells
    (if n < b.recheck.st.respSettle.dir.frontier then b.recheck.st.respSettle.endStaleWait else b.recheck.st.respSettle)
  have reported : Pursues _ (b.afterOutcome n) := (Pursues.refl _).followGaps
  have kept := chased.tidy tidy
  refine ⟨d, b.afterOutcome n, plain_d, reported.tidy ⟨kept.lost, kept.filled, kept.states⟩, ?_⟩
  exact ((((Tells.of_seeks chased.seeks).then_silent answered).then_silent (woken _)).trans
    (spent.then_silent (.of_seeks reported.seeks))).trans (.postAll _ _)

/-- R10, R20, R108: what a PRESENCE does to the journal, and what is posted for it. -/
theorem presenceHeard_posts (s : State) (k : Station) (p : Nat) (c : Check) : ∃ a, (∀ x ∈ a, plain x) ∧
    (s.presenceHeard k p c).2 = (s.dir.presence p).retired ∧ (s.presenceHeard k p c).1.dir = (s.dir.presence p).dir ∧
    (s.presenceHeard k p c).1.now = s.now ∧ Posted s (s.presenceHeard k p c).1
      (a ++ (lostNotices (s.dir.presence p).retired ++ openedNotices (s.dir.presence p).opened)) := by
  obtain ⟨a, plain_a, checked⟩ := checkDivergence_tells s k p c
  have dir : (s.checkDivergence k p c).dir = s.dir := standing_dir (standing_checkDivergence s)
  refine ⟨a, plain_a, ?_⟩
  rw [← dir]
  refine ⟨rfl, standing_dir (standing_postAll _), ?_, checked.posted.trans (posted_postAll (State.setDir _ _) _)⟩
  show (State.journal _ _).now = _
  rw [State.journal, postAll_eq]
  exact checked.now

/-- The state in which a PRESENCE has done its work on the journal: what lasts through its retirement lasts to the end of the
event, and the rest of its notices is plain or owed in order. -/
theorem handMember_presence {k : Station} {p l n : Nat} {c : Check} {m : Bool} :
    ∃ a z d rest, (∀ x ∈ a, plain x) ∧ (∀ x ∈ d, plain x) ∧ Tidy rest ∧ z.dir = (s.dir.presence p).dir ∧ z.now = s.now ∧
      Posted s z (a ++ (lostNotices (s.dir.presence p).retired ++ openedNotices (s.dir.presence p).opened)) ∧
      Tells (d ++ (rest.lost ++ rest.filled ++ rest.states)) (z.applyRetired (s.dir.presence p).retired)
        ((s.batch.handMember k (.presence p l c m) false []).afterOutcome n).flush := by
  obtain ⟨a, plain_a, heard⟩ := peerHeard_tells s k (.presence p l c m)
  obtain ⟨a', plain_a', retired, dir, now, posted⟩ := presenceHeard_posts (s.peerHeard k (.presence p l c m)) k p c
  rw [standing_dir (standing_peerHeard s)] at retired dir posted
  have chased : Pursues ((s.peerHeard k (.presence p l c m)).batch.on fun _ =>
        ((s.peerHeard k (.presence p l c m)).presenceHeard k p c).1.applyRetired
          ((s.peerHeard k (.presence p l c m)).presenceHeard k p c).2)
      (s.batch.handMember k (.presence p l c m) false []) := (Pursues.refl _).recheck.presenceHeard
  have start := tidy_batch (s.peerHeard k (.presence p l c m))
  obtain ⟨d, rest, plain_d, tidy, tells⟩ :=
    afterOutcome_tells (chased.tidy ⟨start.lost, start.filled, start.states⟩) n
  refine ⟨a ++ a', _, d, rest, fun x i => (List.mem_append.1 i).elim (plain_a x) (plain_a' x), plain_d, tidy, dir,
    now.trans heard.now, ?_, ?_⟩
  · rw [List.append_assoc]
    exact heard.posted.trans posted
  · rw [← retired]
    exact (Tells.of_seeks chased.seeks).trans tells

end

/-! ## The statement -/

/-- R10, R20, R132: a peer's PRESENCE above the frontier at the end of its window. -/
theorem presenceWindowEnd {s : State} {w : WindowRun} {k : Station} {p l : Nat} {c chk : Check} {m : Bool} {sc : Scope}
    (ends : peerFrameEnds s w (.sound k (.presence p l c m) chk sc)) (group : s.mem.st = .syncing ∨ s.mem.st = .member)
    (above : s.dir.frontier < p) :
    ∃ t, exec (.windowEnd 0) s = .next t ∧ t.now = max s.now w.due ∧ t.dir.frontier = p ∧
      t.dir.window = s.dir.window.map (fun _ => { low := presenceLow s.dir.window p, high := p - 1 }) ∧
      opensAndRetires s t (presenceLow s.dir.window p) (presenceFirst s.dir p) p ∧
      (∀ c, t.cat.requester = some c → ∀ g, retiredGap s.dir (presenceLow s.dir.window p) g → g ∉ c.run) := by
  obtain ⟨window, peer, pulled, frame, alone⟩ := ends
  obtain ⟨u, standing_u, now_u, port_u, filter_u, conf_u, exec_eq⟩ := windowEnd_judges window pulled
  have group_u : u.inGroup = true := inGroup_iff.2 (by rw [standing_st standing_u]; exact group)
  obtain ⟨v, standing_v, now_v, port_v, judged⟩ := closeJudged_handOn (s := u) peer (by rw [filter_u]; exact frame)
    (by rw [conf_u]; exact alone) group_u (by rw [conf_u]; exact window.2.2.2.2)
  have dir_v : v.dir = s.dir := (standing_dir standing_v).trans (standing_dir standing_u)
  obtain ⟨a, z, d, rest, plain_a, plain_d, tidy, dir_z, now_z, posted_z, tells⟩ :=
    handMember_presence (s := v) (k := k) (p := p) (l := l) (n := u.dir.frontier) (c := c) (m := m)
  rw [dir_v] at dir_z posted_z tells
  rw [judged] at exec_eq
  refine ⟨_, exec_eq, ?_⟩
  generalize e : ((v.batch.handMember k (.presence p l c m) false []).afterOutcome u.dir.frontier).flush = f at tells
  have last : Tells [] f f.finishSwitch.settle :=
    .of_standing ((standing_settle _).trans (standing_finishSwitch f))
      (now_of_internal (Internal.refl f).finishSwitch.settle) ((settle_port _).trans (finishSwitch_port f))
  replace tells := tells.then_silent last
  generalize f.finishSwitch.settle = t at tells
  have retire : Seeks z (z.applyRetired (s.dir.presence p).retired) := (Seeks.refl z).applyRetired
  have whole := (Tells.of_seeks retire).trans tells
  rw [List.nil_append] at whole
  have dir := presence_dir above
  rw [← dir_z] at dir
  refine ⟨?_, whole.frontier.trans dir.1, whole.window.trans dir.2, ?_, fun c h g gone run => ?_⟩
  · rw [whole.now, now_z, now_v, now_u]
  · refine opensAndRetires_of_gapNotices plain_a plain_d tidy (presence_retired_rises above)
      (fun g => presence_retired above) fun all => ?_
    have posted := posted_z.trans whole.posted
    rw [Posted, port_v, port_u] at posted
    rw [added_of_posted posted all, presence_opened above]
    rfl
  · have lasting : Lasting z.dir.window (avoids (· ∈ (s.dir.presence p).retired)) := by
      refine ⟨fun h x y g lo hi => h g (by omega) (by omega), fun h g lo hi m => ?_⟩
      obtain ⟨w, hw, low, _⟩ := h g lo hi
      rw [dir.2] at hw
      obtain ⟨_, _, _, below, _⟩ := (presence_retired above).1 m
      cases e : s.dir.window with
      | none => rw [e] at hw; cases hw
      | some v => rw [e] at hw below; cases hw; exact absurd low (by simp only; omega)
    have avoid := tells.context _ (retire.window ▸ lasting) (applyRetired_avoids (presence_retired_rises above) z)
    rw [RequesterCtx.run, List.mem_range'_1] at run
    exact avoid c h g run.1 run.2 ((presence_retired above).2 gone)

/-- Settles O34: the directory's clauses by the equations of `presence` and `learn`, the event by `presenceWindowEnd`. -/
theorem presenceAndJoinLearningSetTheFrontier : Obligations.PresenceAndJoinLearningSetTheFrontier := by
  refine ⟨fun d p k => by rw [presence_of_le k], fun d p k e => by rw [presence_of_empty k e]; exact ⟨rfl, rfl⟩,
    fun d p w k e f a b => presence_spec k e f a b, learn_spec, fun s w k p l c chk m sc ends group above => ?_⟩
  have spec := presenceWindowEnd ends group above
  unfold presenceFirst presenceLow at spec
  cases e : s.dir.window with
  | none => rw [e] at spec; exact spec
  | some v => rw [e] at spec; exact spec

end Sys2Proof.Proofs
end

section
/-! The record bus: the ends of the waits on the line, frame starts, windows that open, line faults (R29 to R40). Each event is
its own effects, then what follows by itself. -/

namespace Sys2Proof.Proofs

open Sys2Proof Sys2Proof.Machine

variable {s : State}

/-! ## Events as equations -/

/-- An event that ends in what follows by itself. -/
theorem follows_of_settled {o : Host.Outcome State Fault Refusal} {u v : State} (h : o = .next v.settle) (e : v = u) :
    ∃ t, o = .next t ∧ Follows u t := ⟨v.settle, h, e ▸ .settle v⟩

/-- R149: the idle run counts from the entry to IDLE on, and stands in no other state. -/
theorem setRx_eq (s : State) (rx : RxState) : s.setRx rx = { s with
    bus := { s.bus with rx := rx }
    swp := { s.swp with idleSince := if rx = .idle then some (s.swp.idleSince.getD s.now) else none } } := by
  unfold State.setRx
  cases s.swp.idleSince <;> rfl

/-- R101, R112: the first IDLE starts the heartbeat tick and an owed listen timer. -/
theorem reachIdle_eq (s : State) : s.reachIdle = { s with
    bus := { s.bus with rx := .idle }
    swp := { s.swp with idleSince := some (s.swp.idleSince.getD s.now) }
    mem := { s.mem with
      tick := some (s.mem.tick.getD (s.now + s.heartbeat))
      listenTimer := if s.mem.listenOwed then some (s.now + 3 * s.heartbeat) else s.mem.listenTimer
      listenOwed := false } } := by
  unfold State.reachIdle
  simp only [setRx_eq, if_true]
  cases s.mem.tick <;> rfl

/-- R116: a fault on a line sets the fault flag of a member. -/
theorem flagFault_eq (s : State) :
    s.flagFault = s.setMem { s.mem with faultFlag := s.mem.faultFlag || s.inGroup } := by
  unfold State.flagFault
  cases group : s.inGroup
  · simp only [Bool.or_false]; rfl
  · simp only [Bool.or_true]; rfl

/-! ## What follows by itself, at the selector (R85, R96, R97, R107, R150) -/

theorem unoffer_choice_none {who : Sender} (h : s.sel.choice = none) : (s.unoffer who).sel.choice = none := by
  cases who <;> simp [State.unoffer, Selector.setOffer, h]

theorem offer_choice {who : Sender} {b : FrameBody} : (s.offer who b).sel.choice = s.sel.choice := by
  cases who <;> rfl

theorem reoffer_choice_none {who : Sender} {b : FrameBody} (h : s.sel.choice = none) :
    (s.reoffer who b).sel.choice = none := by
  unfold State.reoffer
  split
  · exact h
  · exact offer_choice.trans (unoffer_choice_none h)

@[simp] theorem withdraw_sel {who : PortClient} : (s.withdraw who).sel = s.sel := by
  unfold State.withdraw
  split <;> rfl

@[simp] theorem settleWriter_sel : s.settleWriter.sel = s.sel := by
  unfold State.settleWriter
  split
  · split <;> rfl
  · exact withdraw_sel

@[simp] theorem settleSweep_sel : s.settleSweep.sel = s.sel := by
  unfold State.settleSweep
  repeat' split
  all_goals rfl

theorem settleHead_sel : s.settleHead.sel = { s.sel with record := s.settleHead.sel.record } := by
  unfold State.settleHead
  split
  · split <;> rfl
  · rfl

/-- R107: the PRESENCE offer is the membership unit's. -/
theorem settlePresence_eq : s.settlePresence = s.setSel { s.sel with
    membership := s.settlePresence.sel.membership
    choice := s.settlePresence.sel.choice
    presenceKept := s.settlePresence.sel.presenceKept } := by
  unfold State.settlePresence State.reoffer
  split
  · split
    · rfl
    · dsimp only
      split <;> rfl
  · rfl

/-- R150: a QUIET that is offered stands while it is due. -/
theorem settleQuiet_of_offered {b : FrameBody} (h : s.sel.sweep = some b) :
    s.settleQuiet.sel.sweep = if s.quietDue then some b else none := by
  unfold State.settleQuiet
  rw [h]
  dsimp only
  split
  · exact h
  · rfl

/-- R150: no QUIET is offered while one is in flight. -/
theorem settleQuiet_of_inFlight (h : s.sel.sweep = none) (f : s.quietInFlight = true) : s.settleQuiet = s := by
  unfold State.settleQuiet
  rw [h]
  simp [f]

/-- The state in which the QUIET offer is judged, where the head and the requests have followed. -/
theorem settle_sweep (s : State) : ∃ u, Follows s u ∧ u.sel.sweep = s.sel.sweep ∧ s.settle.sel.sweep = u.settleQuiet.sel.sweep := by
  refine ⟨_, .trans .settlePresence (.trans .settleHead .settleWriter), ?_, ?_⟩
  · rw [settleWriter_sel, settleHead_sel, settlePresence_eq]
    rfl
  · show s.settlePresence.settleHead.settleWriter.settleQuiet.settleSweep.sel.sweep = _
    rw [settleSweep_sel]

theorem quietDue_of_follows {t : State} (h : Follows s t) : t.quietDue = s.quietDue := by rw [h.same]; rfl

theorem quietInFlight_of_follows {t : State} (h : Follows s t) : t.quietInFlight = s.quietInFlight := by
  unfold State.quietInFlight
  rw [h.inFlight]

/-- R150: an offered QUIET that is no longer due is withdrawn (notes/assumptions/43.md). -/
theorem settle_quiet_offered {b : FrameBody} (h : s.sel.sweep = some b) :
    s.settle.sel.sweep = if s.quietDue then some b else none := by
  obtain ⟨u, follows, sweep, settled⟩ := settle_sweep s
  rw [settled, settleQuiet_of_offered (sweep.trans h), quietDue_of_follows follows]

theorem settle_quiet_inFlight (h : s.sel.sweep = none) (f : s.quietInFlight = true) : s.settle.sel.sweep = none := by
  obtain ⟨u, follows, sweep, settled⟩ := settle_sweep s
  rw [settled, settleQuiet_of_inFlight (sweep.trans h) ((quietInFlight_of_follows follows).trans f), sweep, h]

/-- R107: only the PRESENCE offer's values change the membership unit's offer. -/
theorem settle_membership : s.settle.sel.membership = s.settlePresence.sel.membership := by
  have quiet : ∀ u : State, u.settleQuiet.sel.membership = u.sel.membership := fun u => by
    unfold State.settleQuiet
    repeat' split
    all_goals rfl
  show s.settlePresence.settleHead.settleWriter.settleQuiet.settleSweep.sel.membership = _
  rw [settleSweep_sel, quiet, settleWriter_sel, settleHead_sel]

theorem settleChoice_none (busy : s.bus.rx ≠ .idle) (none : s.sel.choice = .none) : s.settleChoice.sel.choice = .none := by
  simp [State.settleChoice, none, busy]

/-- A choice that has ended stays ended while the bus is not idle (R96, R97). -/
theorem settle_choice_none (busy : s.bus.rx ≠ .idle) (none : s.sel.choice = .none) : s.settle.sel.choice = .none := by
  have presence : s.settlePresence.sel.choice = .none := by
    unfold State.settlePresence
    split
    · split
      · exact none
      · exact reoffer_choice_none none
    · exact none
  have quiet : ∀ u : State, u.sel.choice = .none → u.settleQuiet.sel.choice = .none := fun u h => by
    unfold State.settleQuiet
    split
    · split
      · exact h
      · exact unoffer_choice_none h
    · split
      · exact offer_choice.trans h
      · exact h
  have ended : s.settlePresence.settleHead.settleWriter.settleQuiet.settleSweep.sel.choice = .none := by
    rw [settleSweep_sel]
    refine quiet _ ?_
    rw [settleWriter_sel, settleHead_sel]
    exact presence
  have bus : s.settlePresence.settleHead.settleWriter.settleQuiet.settleSweep.bus = s.bus := by
    rw [((Follows.settlePresence (s := s)).trans (.trans .settleHead (.trans .settleWriter (.trans .settleQuiet
      .settleSweep)))).same]
  exact settleChoice_none (bus ▸ busy) ended

/-- The outbound queue changes by its head alone (R85). -/
theorem settle_out : s.settle.out = s.settleHead.out := by
  have writer : ∀ u : State, u.settleWriter.out = u.out := fun u => by
    unfold State.settleWriter State.withdraw
    repeat' split
    all_goals rfl
  have quiet : ∀ u : State, u.settleQuiet.out = u.out := fun u => by
    unfold State.settleQuiet
    repeat' split
    all_goals rfl
  have sweep : ∀ u : State, u.settleSweep.out = u.out := fun u => by
    unfold State.settleSweep
    repeat' split
    all_goals rfl
  show s.settlePresence.settleHead.settleWriter.settleQuiet.settleSweep.out = _
  rw [sweep, quiet, writer, settlePresence_eq]
  unfold State.settleHead
  dsimp only [setSel_out]
  split
  · split <;> rfl
  · rfl

/-- A head that neither waits nor contends stays as it is, and no RECORD is offered (R85). -/
theorem settle_out_of_busy {h : OutEntry} {rest : List OutEntry} (e : s.out.entries = h :: rest)
    (busy : ¬ (h.state = .waiting ∨ h.state = .contending)) : s.settle.out = s.out ∧ s.settle.sel.record = false := by
  have out : s.settle.out = s.out := by
    rw [settle_out]
    unfold State.settleHead
    rw [e]
    simp only [busy, if_false]
    rfl
  have follows := headFollows_settle s
  unfold State.HeadFollowsConditions at follows
  rw [out, e] at follows
  dsimp only at follows
  rw [if_neg busy] at follows
  exact ⟨out, follows⟩

/-! ## The waits on the line -/

/-- Settles O21: SYNC_WAIT and FAULT_WAIT end by `reachIdle_eq`, SEPARATION by `setRx_eq`. -/
theorem waitsOnTheLineEndInIdle : Obligations.WaitsOnTheLineEndInIdle := by
  refine fun s released => ⟨fun rx => ?_, fun rx => ?_, fun rx => ?_⟩
  · refine follows_of_settled ((act_released released).trans (by rw [if_pos rx])) ?_
    rw [reachIdle_eq]
    rfl
  · refine follows_of_settled ((act_released released).trans (by rw [if_pos rx])) ?_
    rw [reachIdle_eq]
    rfl
  · refine follows_of_settled ((act_released released).trans (by rw [if_pos rx])) ?_
    cases fault : s.bus.dataFault with
    | true => rw [if_pos (by exact fault), setRx_eq]; rfl
    | false => rw [if_neg (by simp [State.at, fault]), setRx_eq]; rfl

/-! ## Frame starts -/

/-- Settles O22. -/
theorem frameStartBeginsAFrame : Obligations.FrameStartBeginsAFrame := by
  refine fun s released => ⟨fun rx target fault => ?_, fun rx => ?_, fun rx fault => ?_⟩
  · have begins : s.bus.rx.takesStart && s.bus.steady && !s.bus.dataFault := by
      rcases rx with rx | rx | rx | rx <;> simp [RxState.takesStart, Bus.steady, Bus.on, rx, target, fault]
    have waits : ¬ (s.bus.rx = .syncWait ∨ s.bus.rx = .faultWait) := by
      rcases rx with rx | rx | rx | rx <;> simp [rx]
    refine ⟨((s.setSel { s.sel with choice := none }).beginFrame false).settle, ?_, ?_, ?_⟩
    · refine (act_released released).trans ?_
      rw [State.frameStarts, if_neg waits, if_pos begins]
    · exact settle_choice_none (s := (s.setSel { s.sel with choice := none }).beginFrame false) RxState.noConfusion rfl
    · refine .trans ?_ (.settle _)
      rw [State.beginFrame, setRx_eq]
      exact .setSel rfl rfl rfl fun _ => rfl
  · refine (act_released released).trans ?_
    rw [State.frameStarts, if_pos rx]
    rfl
  · refine (act_released released).trans ?_
    rw [State.frameStarts, if_neg (by rcases rx with rx | rx | rx <;> simp [rx]), if_neg (by simp [fault])]

/-! ## Windows that open -/

theorem unopened_append {before after : List WindowRun} {w : WindowRun} (opened : ∀ v ∈ before, v.opened = true)
    (next : w.opened = false) : unopened (before ++ w :: after) = some w := by
  induction before with
  | nil => simp [unopened, next]
  | cons v rest ih =>
    rw [List.forall_mem_cons] at opened
    simp [unopened, opened.1, ih opened.2]

theorem replaceUnopened_append {before after : List WindowRun} {w v : WindowRun} (opened : ∀ v ∈ before, v.opened = true)
    (next : w.opened = false) : replaceUnopened v (before ++ w :: after) = before ++ v :: after := by
  induction before with
  | nil => simp [replaceUnopened, next]
  | cons u rest ih =>
    rw [List.forall_mem_cons] at opened
    simp [replaceUnopened, opened.1, ih opened.2]

/-- R36: a window that opens now. -/
theorem openWindow_eq (s : State) (w : WindowRun) : s.openWindow w = { s with
    now := max s.now w.due
    bus := { s.bus with
      rx := if s.bus.rx = .preWindow then .window else s.bus.rx
      windows := replaceUnopened { w with opened := true, due := max s.now w.due + s.bt 32 } s.bus.windows
      pull := (s.at w.due).pullFor w }
    swp := if s.bus.rx = .preWindow then { s.swp with idleSince := none } else s.swp } := by
  unfold State.openWindow
  by_cases rx : s.bus.rx = .preWindow
  · simp only [setRx_eq, State.at, setNow_bus, rx, if_true]
    rfl
  · simp only [State.at, setNow_bus, rx, if_false]
    rfl

/-- Settles O28: the first window that has not opened opens, by `openWindow_eq`. -/
theorem windowOpensAndThePullEnds : Obligations.WindowOpensAndThePullEnds := by
  refine ⟨fun s before after w released windows opened next => ?_, fun s p released pull => ?_⟩
  · have opens : exec .windowOpen s = .next (s.openWindow w).settle := by
      show execWindowOpen s = _
      rw [execWindowOpen, act_released released, windows, unopened_append opened next]
    obtain ⟨t, exec_eq, follows⟩ := follows_of_settled opens (openWindow_eq s w)
    rw [windows, replaceUnopened_append opened next] at follows
    refine ⟨t, (s.at w.due).pullFor w, exec_eq, fun none => ?_, fun k e pulled decided => ?_, follows⟩
    · rw [State.pullFor, if_pos none]; rfl
    · rw [State.pullFor, if_neg pulled]
      simp only [State.at, setNow_conf, Confirmation.objection, decided]
      rfl
  · show execObjectionPullEnd s = _
    rw [execObjectionPullEnd, act_released released]
    simp only [pull]
    rfl

/-! ## Line faults -/

/-- R39: a data-line fault. -/
theorem dataLineFault_eq (s : State) : s.dataLineFault =
    let wait := s.bus.rx = .idle ∨ s.bus.rx = .syncWait
    { s with
      bus := { s.bus with
        dataFault := true, inhibit := true
        rx := if wait then .faultWait else s.bus.rx
        recessiveSince := if wait then s.now else s.bus.recessiveSince }
      swp := if wait then { s.swp with idleSince := none } else s.swp
      mem := { s.mem with faultFlag := s.mem.faultFlag || s.inGroup }
      port := s.port.post (.lineFault .data) } := by
  unfold State.dataLineFault
  by_cases wait : s.bus.rx = .idle ∨ s.bus.rx = .syncWait
  · simp only [flagFault_eq, setRx_eq, setMem_bus, State.post, setPort_bus, setBus_bus, wait, if_true]
    rfl
  · simp only [flagFault_eq, setMem_bus, State.post, setPort_bus, setBus_bus, wait, if_false]
    rfl

theorem objectionFault_eq (s : State) : s.objectionFault = if s.bus.objFault then s else { s with
    bus := { s.bus with objFault := true }
    mem := { s.mem with faultFlag := s.mem.faultFlag || s.inGroup }
    port := s.port.post (.lineFault .objection) } := by
  unfold State.objectionFault
  rw [flagFault_eq]
  rfl

/-- Settles O32. -/
theorem lineFaultsAreMarkedOnce : Obligations.LineFaultsAreMarkedOnce := by
  refine fun s released => ⟨fun rx target fault => ?_, fun rx => ?_, fun on => ?_⟩
  · have found : s.bus.rx.watchesData && s.bus.steady && !s.bus.dataFault := by
      rcases rx with rx | rx | rx | rx | rx <;> simp [RxState.watchesData, Bus.steady, Bus.on, rx, target, fault]
    exact follows_of_settled ((act_released released).trans (by rw [if_pos found])) (dataLineFault_eq s)
  · have watched : s.bus.watchesObjection = true := by
      rcases rx with rx | rx | rx | rx | ⟨rx, watch⟩ <;> simp [Bus.watchesObjection, *]
    exact (act_released released).trans (by rw [if_pos watched, objectionFault_eq])
  · exact (act_released released).trans (by rw [if_pos on]; rfl)

end Sys2Proof.Proofs
end

section
/-! The chosen frame starts (R30, R86, R97). -/

namespace Sys2Proof.Proofs

open Sys2Proof Sys2Proof.Machine

variable {s : State} {who : Sender} {b : FrameBody}

/-- An event that moves the clock and works inside the blocks keeps the fixed part. -/
theorem keepsFixed_of_internal {s t : State} {n : Nat} (h : Internal (s.at n) t) : s.KeepsFixed t := by
  have now : t.now = (s.at n).now := congrArg Fixed.now h.fixed
  have freeCount : t.freeCount = (s.at n).freeCount := congrArg Fixed.freeCount h.fixed
  rw [State.KeepsFixed, h.fixed, now, freeCount]
  rfl

/-- What the start of an own frame makes of the bus interface and the filter, and what it leaves alone. -/
structure StartsOwn (s t : State) : Prop where
  bus : t.bus = { s.bus with rx := .frame, frameStart := s.now, objWatch := true }
  filter : t.filter = { s.filter with
    receive := some { bytes := [], framing := [], truncated := false, own := true, readback := false } }
  fixed : s.KeepsFixed t
  now : t.now = s.now
  dir : t.dir = s.dir
  conf : t.conf = s.conf
  mem : t.mem = s.mem
  cat : t.cat = s.cat
  port : t.port = s.port

/-- The start of a frame changes the outbound queue and the selector only. -/
theorem startChoice_eq (s : State) (who : Sender) :
    s.startChoice who = (s.setOut (s.startChoice who).out).setSel (s.startChoice who).sel := by
  unfold State.startChoice State.startRecord
  repeat' split
  all_goals rfl

/-- The state in which the chosen frame is on the bus, before what follows by itself. -/
abbrev ownFrame (s : State) (who : Sender) : State := (s.startChoice who).beginFrame true

theorem ownFrame_sel : (ownFrame s who).sel = (s.startChoice who).sel := rfl

theorem ownFrame_out : (ownFrame s who).out = (s.startChoice who).out := rfl

theorem startsOwn_settle (s : State) (who : Sender) : StartsOwn s (ownFrame s who).settle := by
  have works : Internal s (ownFrame s who).settle := (Internal.refl s).startChoice.beginFrame.settle
  have fixed : s.KeepsFixed (ownFrame s who).settle := keepsFixed_of_internal (n := s.now) (by rwa [at_self])
  have follows := Follows.settle (ownFrame s who)
  have begun : ownFrame s who = (s.startChoice who).beginFrame true := rfl
  rw [startChoice_eq, State.beginFrame, setRx_eq] at begun
  refine { fixed, bus := ?_, filter := ?_, now := ?_, dir := ?_, conf := ?_, mem := ?_, cat := ?_, port := ?_ }
  all_goals
    rw [follows.same, begun]
    rfl

/-- R30, R97: the chosen frame starts where the bus is idle, the interface stays on and its transmitter may pull. -/
theorem exec_ownFrameStart (released : s.resetHeld = false) (idle : s.bus.rx = .idle) (on : s.bus.offTarget = none)
    (free : s.bus.inhibit = false) (alone : s.sel.inFlight = none) (choice : s.sel.choice = some who)
    (allowed : s.sel.offers s.mem.st who = true) : exec .ownFrameStart s = .next (ownFrame s who).settle := by
  show execOwnFrameStart s = _
  rw [execOwnFrameStart, act_released released, choice]
  simp [State.mayStart, Bus.steady, Bus.on, idle, on, free, alone, allowed]

/-- R86: a RECORD is stamped with the frontier. -/
theorem startChoice_outbound {h : OutEntry} {rest : List OutEntry} (e : s.out.entries = h :: rest) :
    s.startChoice .outbound = (s.setOut { s.out with entries := { h with state := .inFlight s.dir.frontier } :: rest }).setSel
      { s.sel with
        record := false, choice := none
        inFlight := some { sender := .outbound, body := .record s.dir.frontier h.tag h.payload, discard := false } } := by
  unfold State.startChoice State.startRecord
  simp only [e, State.setHead, List.tail_cons]
  rfl

/-- R97: any other frame goes as it was offered. -/
theorem startChoice_offered (other : who ≠ .outbound) (offered : s.sel.offer who = some b) :
    s.startChoice who = s.setSel { s.sel.setOffer who none with
      choice := none, inFlight := some { sender := who, body := b, discard := false } } := by
  unfold State.startChoice
  rw [offered]
  cases who with
  | outbound => exact absurd rfl other
  | _ => rfl

/-- R97: the offer of a frame that has started is consumed, and what follows makes it anew for no sender. -/
theorem settle_offer_consumed (other : who ≠ .outbound) (consumed : s.sel.offer who = none)
    (flying : ∃ b, s.sel.inFlight = some { sender := who, body := b, discard := false }) : s.settle.sel.offer who = none := by
  have follows := Follows.settle s
  cases who with
  | sweep =>
    obtain ⟨b, flying⟩ := flying
    exact settle_quiet_inFlight consumed (by simp [State.quietInFlight, flying])
  | membership =>
    have none : s.sel.membership = none := consumed
    exact (follows.memberOffer (by simp [Selector.offersPresence, none])).trans none
  | requester => exact follows.fetchOffer.trans consumed
  | responder => exact follows.responseOffer.trans consumed
  | outbound => exact absurd rfl other

/-- Settles O23: the head's RECORD by `startChoice_outbound`, any other frame by `startChoice_offered`. -/
theorem ownFrameStartsTheChoice : Obligations.OwnFrameStartsTheChoice := by
  refine fun s released idle on free alone => ⟨fun h rest choice record group e => ?_, fun who b other choice offered kind => ?_⟩
  · have allowed : s.sel.offers s.mem.st .outbound = true := by simpa [Selector.offers, record] using group
    refine ⟨_, exec_ownFrameStart released idle on free alone choice allowed, ?_⟩
    have started := startChoice_outbound e
    have out : (ownFrame s .outbound).out = { s.out with entries := { h with state := .inFlight s.dir.frontier } :: rest } := by
      rw [ownFrame_out, started]
      rfl
    obtain ⟨stays, consumed⟩ := settle_out_of_busy (congrArg Outbound.entries out) (by simp)
    obtain ⟨bus, filter, fixed, now, dir, conf, mem, cat, port⟩ := startsOwn_settle s .outbound
    refine ⟨?_, ?_, consumed, bus, filter, fixed, now, dir, conf, mem, cat, port⟩
    · rw [(Follows.settle (ownFrame s .outbound)).inFlight, ownFrame_sel, started]
      rfl
    · exact stays.trans out
  · have allowed : s.sel.offers s.mem.st who = true := by
      cases who with
      | outbound => exact absurd rfl other
      | _ => simpa only [Selector.offers, offered] using kind
    refine ⟨_, exec_ownFrameStart released idle on free alone choice allowed, ?_⟩
    have started := startChoice_offered other offered
    have follows := Follows.settle (ownFrame s who)
    have flying : (ownFrame s who).sel.inFlight = some { sender := who, body := b, discard := false } := by
      rw [ownFrame_sel, started]
      rfl
    obtain ⟨bus, filter, fixed, now, dir, conf, mem, cat, port⟩ := startsOwn_settle s who
    refine ⟨follows.inFlight.trans flying, settle_offer_consumed other ?_ ⟨b, flying⟩, bus, filter, ?_, fixed, now, dir, conf,
      mem, cat, port⟩
    · rw [ownFrame_sel, started]
      cases who with
      | outbound => exact absurd rfl other
      | _ => rfl
    · rw [follows.queue, ownFrame_out, started]
      rfl

end Sys2Proof.Proofs
end

section
/-! A frame ends: it is judged and its window comes due, or it is kept out by a window that is open or awaited (R33 to R36, R44,
R59 to R67). -/

namespace Sys2Proof.Proofs

open Sys2Proof Sys2Proof.Machine

variable {s : State} {c : Classified} {own : Bool} {r f : ReceiveRecord} {bytes : List Byte} {framing : List FramingLevels}

/-! ## The decision of a member (R61 to R67) -/

/-- The pending entry that a member keeps of a frame, if it keeps one. -/
def keptEntries (s : State) (c : Classified) (own : Bool) : List PendEntry :=
  match (frameDecision s c).1 with
  | some ⟨_, true⟩ => (s.pendingEntry c own).toList
  | _ => []

theorem keptEntries_none (h : (frameDecision s c).1 = none) : keptEntries s c own = [] := by simp [keptEntries, h]

theorem keptEntries_without {d : DecisionRecord} (h : (frameDecision s c).1 = some d) (without : d.hasEntry = false) :
    keptEntries s c own = [] := by
  obtain ⟨dec, has⟩ := d
  cases without
  simp [keptEntries, h]

theorem pendingHolds_iff {g : Nat} : s.pendingHolds g = true ↔ ∃ e ∈ s.conf.entries, e.gsn = g := by
  simp [State.pendingHolds]

/-- R66: outside SYNCING and MEMBER nothing is decided. -/
theorem judge_outside (outside : s.inGroup = false) : s.judge c own = s.setConf { s.conf with decision := none } := by
  simp [State.judge, State.decideFrame, outside]

/-- R61 to R67: a member's decision and the entry it keeps. -/
theorem judge_member (member : s.inGroup = true) : s.judge c own = s.setConf { s.conf with
    entries := s.conf.entries ++ keptEntries s c own, decision := (frameDecision s c).1 } := by
  unfold State.judge State.decideFrame keptEntries
  cases c with
  | foreign => simp [member, frameDecision]
  | failure scope => cases scope <;> simp [member, frameDecision]
  | sound k body chk scope =>
    cases scope with
    | addressedElsewhere => simp [member, frameDecision]
    | general =>
      cases body with
      | record g t p =>
        simp only [member, frameDecision, State.decideGeneral, State.pendingEntry]
        by_cases stale : g < s.dir.frontier
        · simp [stale]
        · by_cases full : 4 ≤ s.conf.entries.length <;> simp [stale, full]
      | _ => simp [member, frameDecision, State.decideGeneral, State.pendingEntry]
    | addressedHere =>
      cases body with
      | replay q g o t p =>
        simp only [member, frameDecision, State.decideAddressed, State.pendingEntry, ← pendingHolds_iff]
        by_cases held : s.pendingHolds g = true
        · simp [held]
        · by_cases full : 4 ≤ s.conf.entries.length <;> simp [held, full]
      | _ => simp [member, frameDecision, State.decideAddressed, State.pendingEntry]

/-- The width of the pull that follows from a decision (R36). -/
def pullWidth (d : Option DecisionRecord) : Nat :=
  match d with
  | some ⟨.object k, _⟩ => k.width
  | _ => 0

theorem objection_width {x : Confirmation} : (match x.objection with
    | some k => k.width
    | none => 0) = pullWidth x.decision := by
  unfold Confirmation.objection pullWidth
  rcases x.decision with _ | ⟨_ | _ | _, _⟩ <;> rfl

theorem pullWidth_frameDecision : pullWidth (frameDecision s c).1 = (frameDecision s c).2 := by
  unfold frameDecision
  repeat' split
  all_goals rfl

/-- R61, R62, R66: what a member decides and keeps, frame by frame. -/
theorem judge_spec (member : s.inGroup = true) :
    let x := (s.judge c own).conf
    x.decision = (frameDecision s c).1 ∧ pullWidth x.decision = (frameDecision s c).2 ∧
    (∀ d, x.decision = some d → d.hasEntry = false → x.entries = s.conf.entries) ∧
    (x.decision = none → x.entries = s.conf.entries) ∧
    (∀ k g tag p chk sc, c = .sound k (.record g tag p) chk sc → pullWidth x.decision = 0 → sc = .general →
      x.entries = s.conf.entries ++ [{
        gsn := g, live := true, origin := k, tag := tag, payload := p, check := chk, status := .awaitingWindow false,
        own := own }]) ∧
    (∀ k q g o tag p chk, c = .sound k (.replay q g o tag p) chk .addressedHere → x.decision = some ⟨.noObjection, true⟩ →
      x.entries = s.conf.entries ++ [{
        gsn := g, live := false, origin := o, tag := tag, payload := p, check := chk, status := .awaitingWindow false,
        own := own }]) := by
  rw [judge_member member]
  dsimp only [setConf_conf]
  refine ⟨rfl, pullWidth_frameDecision, fun d decided without => ?_, fun undecided => ?_,
    fun k g tag p chk sc frame silent general => ?_, fun k q g o tag p chk frame kept => ?_⟩
  · rw [keptEntries_without decided without, List.append_nil]
  · rw [keptEntries_none undecided, List.append_nil]
  · subst frame general
    have decision : (frameDecision s (.sound k (.record g tag p) chk .general)).1 = some ⟨.noObjection, true⟩ := by
      rw [pullWidth_frameDecision] at silent
      unfold frameDecision at silent ⊢
      by_cases stale : g < s.dir.frontier
      · simp [stale] at silent
      · by_cases full : 4 ≤ s.conf.entries.length
        · simp [stale, full] at silent
        · simp [stale, full]
    simp [keptEntries, decision, State.pendingEntry]
  · subst frame
    have new : s.pendingHolds g = false := by
      rw [← Bool.not_eq_true, pendingHolds_iff]
      intro held
      simp [frameDecision, held] at kept
    simp [keptEntries, kept, State.pendingEntry, new]

/-! ## The frame end (R35, R44, R59) -/

/-- A frame that ends while a window is open or awaited is not judged. -/
theorem endFrame_overlapping (windows : s.bus.windows ≠ []) : s.endFrame r = { s with
    bus := { s.bus with
      rx := .preWindow
      windows := s.bus.windows ++ [{
        opened := false, overlapping := true, own := r.own, readback := r.readback, pulled := 0, due := s.now + s.bt 2 }] }
    filter := { s.filter with receive := none }
    swp := { s.swp with idleSince := none } } := by
  have some : s.bus.windows.isEmpty = false := by simpa using windows
  unfold State.endFrame
  simp only [setRx_eq, some, Bool.not_false, if_true]
  rfl

/-- The judgement does not depend on the bus interface, the filter or the idle run. -/
theorem judge_beside (bus : Bus) (filter : Filter) (swp : Sweep) :
    ({ s with bus := bus, filter := filter, swp := swp } : State).judge c own =
      { s with bus := bus, filter := filter, swp := swp, conf := (s.judge c own).conf } := by
  have decides : ({ s with bus := bus, filter := filter, swp := swp } : State).decideFrame c = s.decideFrame c := rfl
  have keeps : ({ s with bus := bus, filter := filter, swp := swp } : State).pendingEntry c own = s.pendingEntry c own := rfl
  unfold State.judge
  rw [decides, keeps]
  split
  · rfl
  · dsimp only
    split <;> rfl

/-- Any other frame is classified and judged, and its window is due in 2 bt. -/
theorem endFrame_judged (windows : s.bus.windows = []) (e : r.classify (s.params.map StartParams.group) s.straps.station = c) :
    s.endFrame r = { s with
      bus := { s.bus with
        rx := .preWindow
        windows := [{
          opened := false, overlapping := false, own := r.own, readback := r.readback
          pulled := pullWidth (s.judge c r.own).conf.decision, due := s.now + s.bt 2 }] }
      filter := { receive := none, window := some c }
      conf := (s.judge c r.own).conf
      swp := { s.swp with idleSince := none } } := by
  subst e
  rw [← objection_width]
  unfold State.endFrame
  simp only [setRx_eq, windows, List.isEmpty_nil, Bool.not_true, State.setFilter, judge_beside]
  rfl

/-- A frame that this station sends, or that does not bear its number, is handed over at its end (R41, R44). -/
theorem frameEnds_eq (due : Nat) (number : r.own = true ∨ r.carriesNumber s.straps.station = false) :
    s.frameEnds r due = ((s.at due).endFrame r).settle := by
  have other : ((s.at due).checksNumber r && r.carriesNumber (s.at due).straps.station) = false := by
    rcases number with own | number
    · simp [State.checksNumber, own]
    · simp [State.at, number]
  unfold State.frameEnds
  rw [if_neg (by simp [other])]

theorem ended_marks {places : List Nat} {cut : Bool} :
    (s.ended r bytes places cut).own = r.own ∧ (s.ended r bytes places cut).readback = r.readback := by
  unfold State.ended
  split
  · split <;> exact ⟨rfl, rfl⟩
  · exact ⟨rfl, rfl⟩

/-- R33, R34: a frame end, whole or truncated, with its instant. -/
theorem exec_frameEnd (cut : Bool) (released : s.resetHeld = false) (rx : s.bus.rx = .frame)
    (receive : s.filter.receive = some r) :
    let f := s.ended r bytes (framingErrors framing) cut
    exec (if cut then .frameTruncated bytes framing else .frameEnd bytes framing) s = .next (s.frameEnds f
      (s.bus.frameStart + (if cut then s.bt (truncationLength bytes framing) else s.bt (1 + 10 * f.bytes.length)))) := by
  cases cut with
  | true =>
    show execFrameTruncated bytes framing s = _
    rw [execFrameTruncated, act_released released, receive]
    simp only [rx, if_true]
  | false =>
    show execFrameEnd bytes framing s = _
    rw [execFrameEnd, act_released released, receive]
    simp only [rx, if_true]
    rfl

/-- What every frame end makes of the bus interface and the filter, and what it leaves alone. -/
theorem endFrame_common (s : State) (r : ReceiveRecord) : (s.endFrame r).now = s.now ∧ (s.endFrame r).bus.rx = .preWindow ∧
    (s.endFrame r).filter.receive = none ∧ (s.endFrame r).dir = s.dir ∧ (s.endFrame r).port = s.port ∧
    (s.endFrame r).mem = s.mem ∧ (s.endFrame r).cat = s.cat ∧ (s.endFrame r).conf.budget = s.conf.budget ∧
    (s.endFrame r).conf.write = s.conf.write ∧ (s.endFrame r).conf.drain = s.conf.drain := by
  by_cases windows : s.bus.windows = []
  · rw [endFrame_judged windows rfl]
    cases member : s.inGroup with
    | false => rw [judge_outside member]; simp
    | true => rw [judge_member member]; simp
  · rw [endFrame_overlapping windows]
    simp

/-- Settles O26: a judged frame by `endFrame_judged` and `judge_spec`, any other by `endFrame_overlapping`. -/
theorem frameEndDecidesTheObjection : Obligations.FrameEndDecidesTheObjection := by
  intro cut bytes framing s r released rx receive f c number
  have own : f.own = r.own := ended_marks.1
  have readback : f.readback = r.readback := ended_marks.2
  have ends : exec _ s = .next (s.frameEnds f _) := exec_frameEnd (bytes := bytes) (framing := framing) cut released rx receive
  rw [frameEnds_eq _ (by rwa [own])] at ends
  refine ⟨_, ends, ?_⟩
  generalize s.bus.frameStart + (if cut then s.bt (truncationLength bytes framing) else s.bt (1 + 10 * f.bytes.length)) = due
  have fixed : s.KeepsFixed ((s.at due).endFrame f).settle := keepsFixed_of_internal (Internal.refl _).endFrame.settle
  have common := endFrame_common (s.at due) f
  rw [(Follows.settle ((s.at due).endFrame f)).same] at fixed ⊢
  obtain ⟨now, pre, receive, dir, port, mem, cat, budget, write, drain⟩ := common
  refine ⟨now, pre, receive, fixed, dir, port, mem, cat, budget, write, drain, fun windows => ?_, fun windows => ?_⟩
  · have judged := endFrame_judged (s := s.at due) (r := f) (c := c) windows rfl
    rw [judged]
    refine ⟨_, rfl, rfl, rfl, own, readback, rfl, rfl, fun outside => ?_, fun member => ?_⟩
    · rw [judge_outside (s := s.at due) outside]
      exact ⟨rfl, rfl, rfl⟩
    · rw [← own]
      exact judge_spec (s := s.at due) member
  · rw [endFrame_overlapping (s := s.at due) (r := f) windows]
    exact ⟨_, rfl, rfl, rfl, own, rfl, rfl, rfl, rfl⟩

end Sys2Proof.Proofs
end

section
/-! Bodies as bytes and what a receiver makes of a frame (R45 to R54, R182, R183): what is decoded of a body is sent as that body. -/

namespace Sys2Proof.Proofs

open Sys2Proof Sys2Proof.Machine

/-! ## Fields -/

theorem beNat_foldl (l : List Byte) (n : Nat) :
    l.foldl (fun acc b => acc * 256 + b.toNat) n = n * 256 ^ l.length + beNat l := by
  induction l generalizing n with
  | nil => simp [beNat]
  | cons b rest ih =>
    rw [beNat, List.foldl_cons, List.foldl_cons, ih, ih (0 * 256 + b.toNat), List.length_cons]
    ring

theorem beNat_cons (b : Byte) (l : List Byte) : beNat (b :: l) = b.toNat * 256 ^ l.length + beNat l := by
  rw [beNat, List.foldl_cons, beNat_foldl]
  simp

theorem beNat_lt (l : List Byte) : beNat l < 256 ^ l.length := by
  induction l with
  | nil => simp [beNat]
  | cons b rest ih =>
    rw [beNat_cons, List.length_cons, pow_succ]
    have := b.isLt
    nlinarith

/-- What does not fit a field is dropped (R183). -/
theorem natBytes_add (w k n : Nat) : natBytes w (k * 256 ^ w + n) = natBytes w n := by
  induction w generalizing k with
  | zero => rfl
  | succ w ih =>
    have high : (k * 256 ^ (w + 1) + n) / 256 ^ w = n / 256 ^ w + k * 256 := by
      rw [pow_succ, mul_comm (256 ^ w), ← mul_assoc, Nat.add_comm, Nat.add_mul_div_right _ _ (by positivity)]
    have low : k * 256 ^ (w + 1) + n = k * 256 * 256 ^ w + n := by ring
    rw [natBytes, natBytes, high, low, ih]
    congr 1
    apply BitVec.eq_of_toNat_eq
    simp [Nat.add_mul_mod_self_right]

/-- A list of bytes is its number's field of that width. -/
theorem natBytes_beNat (l : List Byte) : natBytes l.length (beNat l) = l := by
  induction l with
  | nil => rfl
  | cons b rest ih =>
    have high : (b.toNat * 256 ^ rest.length + beNat rest) / 256 ^ rest.length = b.toNat := by
      rw [Nat.add_comm, Nat.add_mul_div_right _ _ (by positivity), Nat.div_eq_of_lt (beNat_lt rest), Nat.zero_add]
    rw [beNat_cons, List.length_cons, natBytes, high, natBytes_add, ih]
    simp

variable {b body : List Byte} {off w kind : Nat}

theorem field_lt : field b off w < 256 ^ w :=
  (beNat_lt _).trans_le (Nat.pow_le_pow_right (by decide) (by simp))

/-- A field that has been read is sent as the bytes it was read from. -/
theorem natBytes_field (fits : off + w ≤ b.length) : natBytes w (field b off w) = (b.drop off).take w := by
  have len : ((b.drop off).take w).length = w := by simp; omega
  have e := natBytes_beNat ((b.drop off).take w)
  rwa [len] at e

theorem natBytes_decodeFrontier : natBytes 6 (decodeFrontier (field b off 6)) = natBytes 6 (field b off 6) := by
  unfold decodeFrontier
  split
  · next e => rw [e]; decide
  · rfl

theorem stationByte_of_station {n : Nat} {p : Station} (h : station? n = some p) : [stationByte p] = natBytes 1 n := by
  unfold station? at h
  split at h
  · cases h; simp [stationByte, natBytes]
  · cases h

theorem code_of_leaveReason {n : Nat} {r : LeaveReason} (h : leaveReason? n = some r) : r.code = n := by
  unfold leaveReason? at h
  split at h <;> cases h <;> rfl

theorem code_of_presenceState {n : Nat} {m : Bool} (h : presenceState? n = some m) : (if m then 5 else 4) = n := by
  unfold presenceState? at h
  split at h <;> cases h <;> rfl

theorem toNat_check : (BitVec.ofNat 16 (field b off 2)).toNat = field b off 2 :=
  Nat.mod_eq_of_lt (field_lt (w := 2))

/-! ## Bodies -/

/-- A field and the bytes behind it. -/
theorem natBytes_field_append {rest : List Byte} (fits : off + w ≤ b.length) (next : rest = b.drop (off + w)) :
    natBytes w (field b off w) ++ rest = b.drop off := by
  rw [natBytes_field fits, next, ← List.drop_drop, List.take_append_drop]

/-- The last field. -/
theorem natBytes_field_last (fits : off + w = b.length) : natBytes w (field b off w) = b.drop off := by
  have e := natBytes_field_append (rest := []) fits.le (by simp [fits])
  rwa [List.append_nil] at e

/-- R54, R183: the fields read of a body that has its kind's length are sent as that body. -/
theorem bodyFields_bytes {f : FrameBody} (fits : bodyLengthFits kind body.length = true) (h : bodyFields kind body = some f) :
    f.kind = kind ∧ f.bytes = body := by
  have station : ∀ {p : Station} {n : Nat} {l : List Byte}, station? n = some p → stationByte p :: l = natBytes 1 n ++ l :=
    fun h => by rw [← stationByte_of_station h]; rfl
  have run : body.length = 8 → natBytes 1 (field body 0 1) ++ (natBytes 6 (field body 1 6) ++ natBytes 1 (field body 7 1)) = body :=
    fun len => natBytes_field_append (off := 0) (by omega)
      (natBytes_field_append (by omega) (natBytes_field_last (by omega)))
  unfold bodyFields at h
  unfold bodyLengthFits at fits
  split at h
  case h_1 =>
    cases h
    exact ⟨rfl, natBytes_field_last (off := 0) (by simpa using (of_decide_eq_true fits).symm)⟩
  case h_2 =>
    cases h
    refine ⟨rfl, natBytes_decodeFrontier.trans (natBytes_field_last (off := 0) (by simpa using (of_decide_eq_true fits).symm))⟩
  case h_3 =>
    obtain ⟨r, code, rfl⟩ := Option.map_eq_some_iff.1 h
    refine ⟨rfl, ?_⟩
    rw [FrameBody.bytes, code_of_leaveReason code]
    exact natBytes_field_last (off := 0) (by simpa using (of_decide_eq_true fits).symm)
  case h_4 =>
    obtain ⟨p, number, rfl⟩ := Option.map_eq_some_iff.1 h
    exact ⟨rfl, (station number).trans (run (of_decide_eq_true fits))⟩
  case h_5 =>
    obtain ⟨p, number, rfl⟩ := Option.map_eq_some_iff.1 h
    exact ⟨rfl, (station number).trans (run (of_decide_eq_true fits))⟩
  case h_6 =>
    split at h
    · next p o requester origin =>
      cases h
      simp only [Bool.and_eq_true, decide_eq_true_eq] at fits
      refine ⟨rfl, ?_⟩
      rw [FrameBody.bytes, station requester, station origin]
      exact natBytes_field_append (off := 0) (by omega) (natBytes_field_append (by omega)
        (natBytes_field_append (by omega) (natBytes_field_append (by omega) rfl)))
    · cases h
  case h_7 =>
    cases h
    simp only [Bool.and_eq_true, decide_eq_true_eq] at fits
    exact ⟨rfl, natBytes_field_append (off := 0) (by omega) (natBytes_field_append (by omega) rfl)⟩
  case h_8 =>
    cases h
    exact ⟨rfl, natBytes_field_last (off := 0) (by simpa using (of_decide_eq_true fits).symm)⟩
  case h_9 =>
    obtain ⟨m, code, rfl⟩ := Option.map_eq_some_iff.1 h
    have len : body.length = 15 := of_decide_eq_true fits
    refine ⟨rfl, ?_⟩
    rw [FrameBody.bytes, code_of_presenceState code, toNat_check, natBytes_decodeFrontier]
    exact natBytes_field_append (off := 0) (by omega) (natBytes_field_append (by omega)
      (natBytes_field_append (by omega) (natBytes_field_last (by omega))))
  case h_10 => cases h

/-- R54: what is decoded of a body is a frame of its kind, with every field in range, that is sent as that body. -/
theorem decodeBody_sound {f : FrameBody} (h : decodeBody kind body = some f) :
    f.inRange = true ∧ f.kind = kind ∧ f.bytes = body := by
  unfold decodeBody at h
  split at h
  · next fits =>
    obtain ⟨fields, range⟩ := Option.filter_eq_some_iff.1 h
    exact ⟨range, bodyFields_bytes fits fields⟩
  · cases h

/-! ## What the filter finds (R50 to R53) -/

section
variable {f : ReceiveRecord} {group : Option Byte} {me : Station}

theorem isForeign_of_some {g : Byte} (h : f.bytes[1]? = some g) :
    f.isForeign group = true ↔ 0 ∉ f.framing ∧ 1 ∉ f.framing ∧ group ≠ some g := by
  simp [ReceiveRecord.isForeign, h, and_assoc]

theorem isForeign_of_none (h : f.bytes[1]? = none) : f.isForeign group = false := by
  simp [ReceiveRecord.isForeign, h]

theorem classify_foreign (h : f.isForeign group = true) : f.classify group me = .foreign := by
  simp [ReceiveRecord.classify, h]

theorem classify_of_failed (h : f.isForeign group = false) (k : f.passesCheck = false) :
    f.classify group me = .failure .general := by
  simp [ReceiveRecord.classify, h, k]

theorem classify_of_malformed (h : f.isForeign group = false) (k : f.passesCheck = true)
    (m : decodeBody f.kind f.body = none) : f.classify group me = .failure (f.scope me) := by
  simp [ReceiveRecord.classify, h, k, m]

/-- A frame cut off is no sound frame (R34). -/
theorem classify_of_truncated (h : f.isForeign group = false) (cut : f.truncated = true) :
    f.classify group me = .failure .general :=
  classify_of_failed h (by simp [ReceiveRecord.passesCheck, cut])

end

/-! ## Whole frames -/

section
variable {f : ReceiveRecord} {arb g l hi lo : Byte} {me : Station}
variable (frame : f.bytes = arb :: g :: l :: (body ++ [hi, lo]))

/-- The two check bytes, high byte first, as a check (R182). -/
theorem check_of_bytes (hi lo : Byte) : BitVec.ofNat 16 (beNat [hi, lo]) = hi ++ lo := by
  apply BitVec.eq_of_toNat_eq
  have := hi.isLt
  have := lo.isLt
  simp only [beNat, List.foldl_cons, List.foldl_nil, BitVec.toNat_ofNat, BitVec.toNat_append]
  rw [← Nat.shiftLeft_add_eq_or_of_lt lo.isLt, Nat.shiftLeft_eq]
  omega

include frame

theorem kind_of_frame : f.kind = arb.toNat / 16 := by
  simp [ReceiveRecord.kind, field, frame, beNat]

theorem body_of_frame : f.body = body := by
  simp [ReceiveRecord.body, frame]

/-- R51: a whole frame passes the check. -/
theorem passesCheck_iff (whole : f.truncated = false) (len : body.length = l.toNat) :
    f.passesCheck = true ↔ f.framing = [] ∧ ¬ (f.own = true ∧ f.readback = true) ∧
      frameCheck (arb :: g :: l :: body) = hi ++ lo := by
  have split : f.bytes = (arb :: g :: l :: body) ++ [hi, lo] := frame
  have covered : f.bytes.length - 2 = (arb :: g :: l :: body).length := by simp [split]
  have third : f.bytes[2]? = some l := by simp [frame]
  have length : f.bytes.length = 5 + l.toNat := by simp [frame, len]; omega
  have take : f.bytes.take (f.bytes.length - 2) = arb :: g :: l :: body := by rw [covered, split, List.take_left']; rfl
  have drop : f.bytes.drop (f.bytes.length - 2) = [hi, lo] := by rw [covered, split, List.drop_left']; rfl
  unfold ReceiveRecord.passesCheck
  rw [take, drop, check_of_bytes, third]
  cases f.own <;> simp [whole, length, and_assoc]

/-- R52: the scope by the first body byte of a GONE or REPLAY. -/
theorem scope_of_frame : f.scope me = match body.head? with
    | some r => if (arb.toNat / 16 = 5 ∨ arb.toNat / 16 = 6) ∧ r.toNat < 16 then
        (if r.toNat = me.val then .addressedHere else .addressedElsewhere) else .general
    | none => .general := by
  unfold ReceiveRecord.scope
  rw [kind_of_frame frame, body_of_frame frame]
  by_cases addressed : arb.toNat / 16 = 5 ∨ arb.toNat / 16 = 6
  · cases body with
    | nil => simp
    | cons r rest => simp [addressed]
  · cases body with
    | nil => simp
    | cons r rest => simp [addressed]

end

/-- Settles O27: a truncated frame by `classify_of_truncated`; a whole one by its check, and a body that is not decoded by
`decodeBody_sound`. -/
theorem truncatedFrameIsAContentFailure : Obligations.TruncatedFrameIsAContentFailure := by
  refine ⟨fun f group me cut => ⟨fun g second arbSound groupSound other => ?_, fun unsure => ?_⟩,
    fun f group me arb g l hi lo body whole frame len => ?_⟩
  · exact classify_foreign ((isForeign_of_some second).2 ⟨arbSound, groupSound, other⟩)
  · refine classify_of_truncated (Bool.not_eq_true _ ▸ fun foreign => ?_) cut
    cases second : f.bytes[1]? with
    | none => rw [isForeign_of_none second] at foreign; cases foreign
    | some g =>
      obtain ⟨arbSound, groupSound, other⟩ := (isForeign_of_some second).1 foreign
      rcases unsure with short | arbError | groupError | ⟨g', second', same⟩
      · exact absurd (List.getElem?_eq_some_iff.1 second).1 (by omega)
      · exact arbSound arbError
      · exact groupSound groupError
      · exact other (by rw [same, ← second', second])
  · have second : f.bytes[1]? = some g := by simp [frame]
    intro otherGroup kind check
    have foreign : f.isForeign group = true ↔ otherGroup := isForeign_of_some second
    have passes := passesCheck_iff frame whole len
    refine ⟨fun other => classify_foreign (foreign.2 other), fun same failed => ?_,
      fun same framing readback good undecoded => ?_⟩
    · refine classify_of_failed (Bool.not_eq_true _ ▸ fun e => same (foreign.1 e)) (Bool.not_eq_true _ ▸ fun e => ?_)
      obtain ⟨noError, readWell, good⟩ := passes.1 e
      rcases failed with error | own | bad
      · exact error noError
      · exact readWell own
      · exact bad good
    · have malformed : decodeBody f.kind f.body = none := by
        rw [kind_of_frame frame, body_of_frame frame, Option.eq_none_iff_forall_ne_some]
        intro b decoded
        obtain ⟨range, sameKind, bytes⟩ := decodeBody_sound decoded
        exact undecoded b range sameKind bytes
      have passed : f.passesCheck = true := passes.2 ⟨framing, fun own => by simp [own] at readback, good⟩
      exact (classify_of_malformed (Bool.not_eq_true _ ▸ fun e => same (foreign.1 e)) passed malformed).trans
        (congrArg Classified.failure (scope_of_frame frame))

end Sys2Proof.Proofs
end

section
/-! What the requester's work keeps (R106, R120 to R133): an induction principle over its steps, with what the events of the record
bus need of it: the bus interface, the confirmation unit, the offers of the other senders, the counts of the slots. -/

namespace Sys2Proof.Proofs

open Sys2Proof Sys2Proof.Machine

/-! ## The principle -/

/-- A relation between states that each step of the requester's work keeps. -/
structure Pursued (r : State → State → Prop) : Prop where
  refl : ∀ s, r s s
  trans : ∀ {s t u}, r s t → r t u → r s u
  unoffer : ∀ s, r s (s.unoffer .requester)
  offer : ∀ s b, r s (s.offer .requester b)
  discardFlight : ∀ s, r s (s.discardFlight .requester)
  setRequester : ∀ s c, r s (s.setRequester c)
  markLost : ∀ s l, r s (s.setDir (s.dir.markLost l))
  enter : ∀ s x, s.inGroup = true → (x = .syncing ∨ x = .member) → r s (s.setMem { s.mem with st := x })

namespace Pursued

variable {r : State → State → Prop} (h : Pursued r) {s : State} {b : Batch} {c : RequesterCtx} {k : Station}

include h

theorem endRequester (w : r s b.st) : r s b.endRequester.st := by
  unfold Batch.endRequester
  split
  · exact w
  · exact h.trans w (h.trans (h.trans (h.unoffer _) (h.discardFlight _)) (h.setRequester _ _))

theorem giveUp {l : List Nat} (w : r s b.st) : r s (b.giveUp l).st := h.trans w (h.markLost _ _)

theorem offerFetch {t : State} (w : r s t) : r s (t.offerFetch c k) := by
  unfold State.offerFetch State.reoffer
  split
  · exact h.trans w (h.setRequester _ _)
  · exact h.trans w (h.trans (h.setRequester _ _) (h.trans (h.unoffer _) (h.offer _ _)))

theorem select {n : Nat} (w : r s b.st) : r s (b.select n).st := by
  have waits : ∀ {b' : Batch} (c' : RequesterCtx), r s b'.st → r s (b'.on fun s => (s.unoffer .requester).setRequester (some c')).st :=
    fun _ w => h.trans w (h.trans (h.unoffer _) (h.setRequester _ _))
  induction n generalizing b with
  | zero => exact w
  | succ n ih =>
    rw [Batch.select]
    split
    · exact w
    · dsimp only
      split
      · exact waits _ w
      · split
        · exact h.endRequester w
        · split
          · exact h.offerFetch w
          · split
            · exact ih (h.giveUp (waits _ w))
            · split
              · exact ih (h.giveUp (waits _ w))
              · exact waits _ w

theorem selectResponder (w : r s b.st) : r s b.selectResponder.st := h.select w

theorem completeAttempt (w : r s b.st) : r s (b.completeAttempt c k).st :=
  h.selectResponder (h.trans w (h.setRequester _ _))

theorem applyTimeout (w : r s b.st) : r s (b.applyTimeout c k).st := by
  unfold Batch.applyTimeout
  split
  · exact h.endRequester (h.giveUp (h.trans w (h.setRequester _ _)))
  · exact h.selectResponder (h.trans w (h.setRequester _ _))

theorem recheck (w : r s b.st) : r s b.recheck.st := by
  unfold Batch.recheck
  split
  · exact w
  · dsimp only
    split
    · exact w
    split
    · exact h.endRequester w
    split
    · split
      · exact h.completeAttempt w
      · split
        · exact h.applyTimeout w
        · exact w
    · split
      · exact w
      · split
        · exact h.offerFetch w
        · exact h.selectResponder w
    · split
      · exact h.selectResponder w
      · exact w

theorem gapReport (w : r s b.st) : r s b.gapReport.st := by
  unfold Batch.gapReport
  split
  · next e => exact h.trans w (h.enter _ _ (inGroup_iff.2 (.inr e.1)) (.inl rfl))
  · split
    · next e => exact h.trans w (h.enter _ _ (inGroup_iff.2 (.inl e.1)) (.inr rfl))
    · exact w

theorem formContext (w : r s b.st) : r s b.formContext.st := by
  unfold Batch.formContext
  split
  · exact w
  · exact h.selectResponder (h.trans w (h.setRequester _ _))

theorem formContexts {n : Nat} (w : r s b.st) : r s (b.formContexts n).st := by
  induction n generalizing b with
  | zero => exact h.gapReport w
  | succ n ih =>
    rw [Batch.formContexts]
    split
    · exact ih (h.formContext (h.gapReport w))
    · exact h.gapReport w

theorem followGaps (w : r s b.st) : r s b.followGaps.st := h.formContexts w

end Pursued

/-! ## Counts of the slots when GAP slots are given up (R5, R131) -/

section
variable {d : Directory} {g : Nat} {l : List Nat}

/-- A GAP slot that becomes LOST is one GAP slot less and one LOST slot more. -/
theorem put_lost_counts (h : d.Counted) (k : d.holdsGap g = true) :
    (d.put (.lost g)).lostCount = d.lostCount + 1 ∧
    (d.put (.lost g)).gapCount + (d.put (.lost g)).lostCount = d.gapCount + d.lostCount := by
  have slot : d.slotAt (slotOf g) = some (.gap g) := ((Directory.held_eq _ _ _).1 ((Directory.holdsGap_iff _ _).1 k)).1
  have lost : (d.put (.lost g)).lostCount = d.lostCount + 1 := by
    show d.lostCount + 1 - (isLostSlot (d.slotAt (slotOf g))).toNat = _
    rw [slot]
    rfl
  have gap : (d.put (.lost g)).gapCount = d.gapCount - 1 := by
    show d.gapCount + 0 - (isGapSlot (d.slotAt (slotOf g))).toNat = _
    rw [slot]
    rfl
  have some : 1 ≤ d.gapCount := by
    obtain ⟨sorted, _, count, _⟩ := h
    have erased := countP_erase isGapSlot rfl (slotOf g) d.slots sorted
    rw [show mapGet (slotOf g) d.slots = some (.gap g) from slot, show (isGapSlot (some (.gap g))).toNat = 1 from rfl] at erased
    omega
  omega

theorem markLost_counts (h : d.Counted) : d.lostCount ≤ (d.markLost l).lostCount ∧
    (d.markLost l).gapCount + (d.markLost l).lostCount = d.gapCount + d.lostCount := by
  induction l generalizing d with
  | nil => exact ⟨le_rfl, rfl⟩
  | cons g rest ih =>
    rw [markLost_cons]
    split
    · next k =>
      obtain ⟨lost, sum⟩ := put_lost_counts h k
      obtain ⟨rises, same⟩ := ih (d := d.put (.lost g)) h.put
      omega
    · exact ih h

end

/-! ## What the work of a window or of a lost arbitration leaves to be done abides by -/

/-- What the bus interface, the receive filter and the frame in flight are. -/
def onLine (s : State) : Bus × Filter × Bool := (s.bus, s.filter, s.sel.inFlight.isSome)

/-- From `s` to `t` GAP slots have been given up at most, and the station state has followed the gap count; the bus interface
and the confirmation unit stand. -/
structure Abides (s t : State) : Prop where
  line : onLine t = onLine s
  conf : t.conf = s.conf
  group : t.inGroup = s.inGroup
  outside : s.inGroup = false → t.mem.st = s.mem.st
  window : t.dir.window = s.dir.window
  frontier : t.dir.frontier = s.dir.frontier
  held : ∀ g, t.dir.held g = s.dir.held g ∨ (s.dir.held g = some (.gap g) ∧ t.dir.held g = some (.lost g))
  counts : s.dir.Counted → t.dir.Counted ∧ s.dir.lostCount ≤ t.dir.lostCount ∧
    t.dir.gapCount + t.dir.lostCount = s.dir.gapCount + s.dir.lostCount

namespace Abides

variable {s t u : State}

theorem inGroup_congr (h : t.mem.st = s.mem.st) : t.inGroup = s.inGroup := by
  unfold State.inGroup
  rw [h]

/-- A step that leaves the directory alone. -/
theorem of_same (line : onLine t = onLine s) (conf : t.conf = s.conf) (st : t.mem.st = s.mem.st) (dir : t.dir = s.dir) :
    Abides s t :=
  ⟨line, conf, inGroup_congr st, fun _ => st, by rw [dir], by rw [dir], fun _ => .inl (by rw [dir]),
    fun c => by rw [dir]; exact ⟨c, le_rfl, rfl⟩⟩

theorem refl (s : State) : Abides s s := of_same rfl rfl rfl rfl

theorem trans (h : Abides s t) (k : Abides t u) : Abides s u where
  line := k.line.trans h.line
  conf := k.conf.trans h.conf
  group := k.group.trans h.group
  outside o := (k.outside (h.group.trans o)).trans (h.outside o)
  window := k.window.trans h.window
  frontier := k.frontier.trans h.frontier
  held g := by
    rcases k.held g with same | ⟨gap, lost⟩
    · rw [same]; exact h.held g
    · rcases h.held g with same' | ⟨_, lost'⟩
      · exact .inr ⟨same' ▸ gap, lost⟩
      · rw [lost'] at gap; cases gap
  counts c := by
    obtain ⟨c', rises, sum⟩ := h.counts c
    obtain ⟨c'', rises', sum'⟩ := k.counts c'
    exact ⟨c'', rises.trans rises', sum'.trans sum⟩

theorem follows (h : Follows s t) : Abides s t := by
  have flight := h.inFlight
  refine of_same ?_ (by rw [h.same]) (by rw [h.same]) (by rw [h.same])
  rw [h.same]
  simp [onLine, flight]

theorem postAll (s : State) (l : List Notice) : Abides s (s.postAll l) := by
  rw [postAll_eq]
  exact of_same rfl rfl rfl rfl

/-- The requester's work abides. -/
theorem pursued : Pursued Abides where
  refl := refl
  trans := trans
  unoffer _ := of_same rfl rfl rfl rfl
  offer _ _ := of_same rfl rfl rfl rfl
  discardFlight s := by
    unfold State.discardFlight
    split
    · next f flying =>
      split
      · exact of_same (by simp [onLine, flying]) rfl rfl rfl
      · exact refl s
    · exact refl s
  setRequester _ _ := of_same rfl rfl rfl rfl
  markLost s l := {
    line := rfl
    conf := rfl
    group := rfl
    outside := fun _ => rfl
    window := markLost_window _ _
    frontier := markLost_frontier _ _
    held := (Seeks.refl s).markLost.held
    counts := fun c => ⟨c.markLost, markLost_counts c⟩ }
  enter s x group within := {
    line := rfl
    conf := rfl
    group := (inGroup_iff.2 within).trans group.symm
    outside := fun o => by rw [group] at o; cases o
    window := rfl
    frontier := rfl
    held := fun _ => .inl rfl
    counts := fun c => ⟨c, le_rfl, rfl⟩ }

end Abides

/-- From `s` to `t` the offers have stayed, but for the requester's; the choice and the frame in flight are not spoken of. -/
def KeepsOffers (s t : State) : Prop :=
  t.sel = { s.sel with requester := t.sel.requester, choice := t.sel.choice, inFlight := t.sel.inFlight }

/-- The requester's work leaves the other offers alone. -/
theorem keepsOffers_pursued : Pursued KeepsOffers where
  refl _ := rfl
  trans {s t u} h k := by
    unfold KeepsOffers at h k ⊢
    rw [k, h]
  unoffer _ := rfl
  offer _ _ := rfl
  discardFlight s := by
    unfold State.discardFlight
    split
    · split <;> rfl
    · rfl
  setRequester _ _ := rfl
  markLost _ _ := rfl
  enter _ _ _ _ := rfl

end Sys2Proof.Proofs
end

section
/-! What the offers, the outbound queue and the contexts have beside them: the operations that leave the bus interface, the filter,
the membership unit, the confirmation unit and the directory alone; and the departures (R116 to R118), which clear the contexts. -/

namespace Sys2Proof.Proofs

open Sys2Proof Sys2Proof.Machine

/-- What the offers, the queue and the contexts have beside them, the membership unit's offer with it. -/
def beside (s : State) : (Bus × Filter × Bool) × Membership × Confirmation × Directory × Option FrameBody :=
  (onLine s, s.mem, s.conf, s.dir, s.sel.membership)

theorem beside_iff {s t : State} : beside t = beside s ↔ onLine t = onLine s ∧ t.mem = s.mem ∧ t.conf = s.conf ∧
    t.dir = s.dir ∧ t.sel.membership = s.sel.membership := by simp [beside]

theorem abides_of_beside {s t : State} (h : beside t = beside s) : Abides s t := by
  obtain ⟨line, mem, conf, dir, _⟩ := beside_iff.1 h
  exact .of_same line conf (by rw [mem]) dir

variable {s : State}

/-! ## One block -/

theorem beside_unoffer {who : Sender} (h : who ≠ .membership) : beside (s.unoffer who) = beside s := by
  cases who <;> first | rfl | exact absurd rfl h

theorem beside_offer {who : Sender} {b : FrameBody} (h : who ≠ .membership) : beside (s.offer who b) = beside s := by
  cases who <;> first | rfl | exact absurd rfl h

theorem beside_reoffer {who : Sender} {b : FrameBody} (h : who ≠ .membership) : beside (s.reoffer who b) = beside s := by
  unfold State.reoffer
  split
  · rfl
  · exact (beside_offer h).trans (beside_unoffer h)

@[simp] theorem beside_discardFlight {who : Sender} : beside (s.discardFlight who) = beside s := by
  unfold State.discardFlight
  split
  · next f flying =>
    split
    · simp [beside, onLine, flying]
    · rfl
  · rfl

@[simp] theorem beside_postAll {l : List Notice} : beside (s.postAll l) = beside s := by rw [postAll_eq]; rfl

@[simp] theorem beside_withdraw {who : PortClient} : beside (s.withdraw who) = beside s := by
  unfold State.withdraw
  split <;> rfl

/-! ## The outbound queue -/

theorem dropAll_eq (s : State) (r : DropReason) : s.dropAll r =
    ((s.unoffer .outbound).setOut { s.out with entries := [], departing := false }).setPort (s.dropAll r).port :=
  postAll_eq _ _

@[simp] theorem beside_dropAll {r : DropReason} : beside (s.dropAll r) = beside s := by rw [dropAll_eq]; rfl

@[simp] theorem beside_recordResult {c : Observed} {x : Bool} : beside (s.recordResult c x) = beside s := by
  unfold State.recordResult
  split
  · rfl
  · dsimp only
    repeat' split
    all_goals rfl

@[simp] theorem beside_finishDeparture : beside s.finishDeparture = beside s := by
  unfold State.finishDeparture
  split <;> simp

@[simp] theorem beside_endStaleWait : beside s.endStaleWait = beside s := by
  unfold State.endStaleWait
  repeat' split
  all_goals rfl

@[simp] theorem beside_spendNumbers : beside s.spendNumbers = beside s := by
  unfold State.spendNumbers
  split <;> simp

@[simp] theorem beside_departQueue : beside s.departQueue = beside s := by
  unfold State.departQueue
  split
  · split
    · split
      · rfl
      · exact beside_dropAll
    · exact beside_dropAll
  · exact beside_dropAll

/-- R94: with no frame in flight the departure empties the queue at once. -/
theorem departQueue_entries (grounded : s.sel.inFlight = none) : s.departQueue.out.entries = [] := by
  have dropped : (s.dropAll .departed).out.entries = [] := by rw [dropAll_eq]; rfl
  unfold State.departQueue
  split
  · split
    · rw [if_neg (by simp [Selector.flies, grounded])]
      exact dropped
    · exact dropped
  · exact dropped

/-! ## The responder -/

@[simp] theorem beside_offerResponse {r : ResponderCtx} {b : FrameBody} : beside (s.offerResponse r b) = beside s :=
  beside_reoffer (by decide)

@[simp] theorem beside_respDecide {r : ResponderCtx} : beside (s.respDecide r) = beside s := by
  unfold State.respDecide
  split
  · rfl
  · split
    · exact beside_offerResponse
    · rfl

@[simp] theorem beside_respSettle : beside s.respSettle = beside s := by
  unfold State.respSettle
  repeat' split
  all_goals simp

@[simp] theorem beside_endResponder : beside s.endResponder = beside s := by
  unfold State.endResponder
  split
  · rfl
  · have ended := (beside_withdraw (s := (s.unoffer .responder).discardFlight .responder) (who := .responder)).trans
      (beside_discardFlight.trans (beside_unoffer (by decide)))
    exact ended

@[simp] theorem beside_respResult {x y : Bool} : beside (s.respResult x y) = beside s := by
  unfold State.respResult
  split
  · split
    · split
      · dsimp only
        split
        · exact beside_endResponder
        · exact beside_respDecide
      · split
        · exact beside_endResponder
        · split
          · rfl
          · exact beside_offerResponse
    · rfl
  · rfl

/-! ## The contexts at a departure (R119) -/

section
variable {b : Batch}

theorem beside_endRequester : beside b.endRequester.st = beside b.st := by
  unfold Batch.endRequester
  split
  · rfl
  · exact (beside_discardFlight (s := b.st.unoffer .requester)).trans (beside_unoffer (by decide))

theorem beside_clearContexts : beside b.clearContexts.st = beside b.st := beside_endRequester.trans beside_endResponder

theorem discardFlight_beside {who : Sender} : (s.discardFlight who).cat = s.cat ∧ (s.discardFlight who).out = s.out := by
  unfold State.discardFlight
  split
  · split <;> exact ⟨rfl, rfl⟩
  · exact ⟨rfl, rfl⟩

theorem withdraw_beside {who : PortClient} : (s.withdraw who).cat = s.cat ∧ (s.withdraw who).out = s.out := by
  unfold State.withdraw
  split <;> exact ⟨rfl, rfl⟩

theorem endResponder_cat : s.endResponder.cat = { s.cat with responder := none } ∧ s.endResponder.out = s.out := by
  unfold State.endResponder
  split
  · next e => rw [← e]; exact ⟨rfl, rfl⟩
  · have withdrawn := withdraw_beside (s := (s.unoffer .responder).discardFlight .responder) (who := .responder)
    have discarded := discardFlight_beside (s := s.unoffer .responder) (who := .responder)
    refine ⟨?_, withdrawn.2.trans discarded.2⟩
    show { (State.withdraw _ _).cat with responder := none } = _
    rw [withdrawn.1, discarded.1]
    rfl

theorem endRequester_cat : b.endRequester.st.cat = { b.st.cat with requester := none } ∧ b.endRequester.st.out = b.st.out := by
  unfold Batch.endRequester
  split
  · next e => rw [← e]; exact ⟨rfl, rfl⟩
  · have discarded := discardFlight_beside (s := b.st.unoffer .requester) (who := .requester)
    refine ⟨?_, discarded.2⟩
    show { (State.discardFlight _ _).cat with requester := none } = _
    rw [discarded.1]
    rfl

theorem clearContexts_cat : b.clearContexts.st.cat = { requester := none, responder := none } ∧
    b.clearContexts.st.out = b.st.out := by
  have requester := endRequester_cat (b := b.on State.endResponder)
  have responder := endResponder_cat (s := b.st)
  refine ⟨requester.1.trans ?_, requester.2.trans responder.2⟩
  show { (State.endResponder _).cat with requester := none } = _
  rw [responder.1]

end

/-! ## Leaving the group (R117, R118) -/

/-- What the end of LEAVING's group part and the entry to FAULT have in common. -/
def leaveGroup (b : Batch) : Batch :=
  ((b.on fun s => (s.unoffer .membership).departQueue).clearContexts).on fun s => s.resetPeers.requestDrain

/-- From `s` to `t` the station has left the group: its offer and its contexts are gone, the peer entries reset, what awaited its
window is voided and the drain asked for. -/
structure LeavesGroup (s t : State) : Prop where
  line : onLine t = onLine s
  mem : t.mem = { s.mem with peers := Vector.replicate 16 Peer.reset }
  conf : t.conf = { s.conf with
    entries := s.conf.entries.filter PendEntry.isConfirmed, write := s.conf.write.map CurrentWrite.lose, drain := true }
  dir : t.dir = (s.conf.entries.filter fun e => !e.isConfirmed).foldl Directory.rollBack s.dir
  cat : t.cat = { requester := none, responder := none }
  offer : t.sel.membership = none
  queue : s.sel.inFlight = none → t.out.entries = []

theorem requestDrain_mem : s.resetPeers.requestDrain.mem = { s.mem with peers := Vector.replicate 16 Peer.reset } := rfl

theorem requestDrain_conf : s.resetPeers.requestDrain.conf = { s.conf with
    entries := s.conf.entries.filter PendEntry.isConfirmed, write := s.conf.write.map CurrentWrite.lose, drain := true } := rfl

theorem requestDrain_dir : s.resetPeers.requestDrain.dir =
    (s.conf.entries.filter fun e => !e.isConfirmed).foldl Directory.rollBack s.dir := rfl

theorem leavesGroup (b : Batch) : LeavesGroup b.st (leaveGroup b).st := by
  obtain ⟨line, mem, conf, dir, offer⟩ := beside_iff.1
    ((beside_clearContexts (b := b.on fun s => (s.unoffer .membership).departQueue)).trans beside_departQueue)
  obtain ⟨cat, out⟩ := clearContexts_cat (b := b.on fun s => (s.unoffer .membership).departQueue)
  unfold leaveGroup
  generalize (b.on fun s => (s.unoffer .membership).departQueue).clearContexts = d at *
  refine { line, cat, mem := ?_, conf := ?_, dir := ?_, offer, queue := fun grounded => ?_ }
  · rw [on_st, requestDrain_mem, mem]
    rfl
  · rw [on_st, requestDrain_conf, conf]
    rfl
  · rw [on_st, requestDrain_dir, conf, dir]
    rfl
  · exact (congrArg Outbound.entries out).trans (departQueue_entries (s := b.st.unoffer .membership) grounded)

theorem on_on (b : Batch) (f g : State → State) : (b.on f).on g = b.on fun s => g (f s) := rfl

/-- R117: the end of LEAVING's group part. -/
theorem endGroupPart_eq (b : Batch) : b.endGroupPart = leaveGroup (b.on fun s =>
    s.setMem { s.mem with leave := s.mem.leave.map fun l => { l with timer := none, expired := false } }) := by
  unfold leaveGroup
  rw [on_on]
  rfl

/-- R118: the entry to FAULT. -/
theorem enterFault_eq (b : Batch) : b.enterFault = (leaveGroup ((b.enter .fault).on fun s => s.setMem { s.mem with
    leave := none, learned := none, highBefore := none, listenTimer := none, listenOwed := false, joinWait := none,
    presence := none, joinOwed := false, departWait := 0 })).on fun s => s.switchTo .stopped := by
  unfold leaveGroup
  rw [on_on, on_on]
  rfl

end Sys2Proof.Proofs
end

section
/-! DUPLICATE_STATION and what waits for the own frame's window (R41, R42, R118). -/

namespace Sys2Proof.Proofs

open Sys2Proof Sys2Proof.Machine

variable {s : State} {b : Batch} {target : RxState}

/-! ## Switching the bus interface (R42) -/

/-- The interface that is switched at once (R28, R112). -/
theorem retune_eq (s : State) (target : RxState) : s.retune target = { s with
    bus := (s.retune target).bus
    filter := { receive := none, window := none }
    conf := { s.conf with decision := none }
    mem := { s.mem with tick := none }
    swp := (s.retune target).swp } := by
  unfold State.retune
  simp only [setRx_eq]
  rfl

theorem retune_bus (s : State) (target : RxState) : (s.retune target).bus.rx = target ∧ (s.retune target).bus.windows = [] ∧
    (s.retune target).bus.offTarget = none := by
  unfold State.retune
  simp only [setRx_eq]
  split <;> exact ⟨rfl, rfl, rfl⟩

theorem finishOwn_eq (s : State) (target : RxState) : s.finishOwn target = { s with
    bus := (s.finishOwn target).bus, filter := (s.finishOwn target).filter, swp := (s.finishOwn target).swp } := by
  unfold State.finishOwn
  simp only [setRx_eq]
  rfl

/-- What every switching leaves alone. -/
theorem switchTo_eq (s : State) (target : RxState) : s.switchTo target = { s with
    bus := (s.switchTo target).bus
    filter := (s.switchTo target).filter
    conf := { s.conf with decision := (s.switchTo target).conf.decision }
    mem := { s.mem with tick := (s.switchTo target).mem.tick }
    swp := (s.switchTo target).swp } := by
  unfold State.switchTo
  split
  · rw [finishOwn_eq]
  · rw [retune_eq]

/-- With no own frame under way the interface is switched at once. -/
theorem switchTo_free (receive : s.filter.receive = none) (free : ∀ w ∈ s.bus.windows, w.own = false) :
    s.switchTo target = s.retune target := by
  have idle : s.ownUnderWay = false := by simpa [State.ownUnderWay, Filter.receivesOwn, receive] using free
  rw [State.switchTo, idle]
  rfl

/-- R42: while the window of an own frame has still to end, the interface finishes it (notes/assumptions/18.md). -/
theorem switchTo_own (receive : s.filter.receive = none) (own : ∃ w ∈ s.bus.windows, w.own = true) :
    let t := s.switchTo target
    t.bus.windows = s.bus.windows.filter WindowRun.own ∧ (t.bus.rx = .window ∨ t.bus.rx = .preWindow) ∧
    t.bus.offTarget = some target ∧ t.filter = { receive := none, window := s.filter.window } ∧ t.mem.tick = s.mem.tick := by
  have busy : s.ownUnderWay = true := by simpa [State.ownUnderWay, Filter.receivesOwn, receive] using own
  rw [State.switchTo, busy]
  refine ⟨rfl, ?_, rfl, by simp [State.finishOwn, Filter.receivesOwn, receive], rfl⟩
  simp only [State.finishOwn, setRx_eq, Filter.receivesOwn, receive, if_true]
  rw [if_neg (by decide)]
  split
  · exact .inl rfl
  · exact .inr rfl

/-! ## The end of an event -/

/-- The notices owed and what follows by itself leave the other blocks alone. -/
theorem flush_settle_beside (b : Batch) : b.flush.settle.bus = b.st.bus ∧ b.flush.settle.filter = b.st.filter ∧
    b.flush.settle.mem = b.st.mem ∧ b.flush.settle.cat = b.st.cat ∧ b.flush.settle.conf = b.st.conf ∧
    b.flush.settle.dir = b.st.dir := by
  rw [(Follows.settle b.flush).same, Batch.flush, postAll_eq]
  exact ⟨rfl, rfl, rfl, rfl, rfl, rfl⟩

theorem settle_membership_none (none : s.sel.membership = none) : s.settle.sel.membership = .none :=
  ((Follows.settle s).memberOffer (by simp [Selector.offersPresence, none])).trans none

theorem settle_entries_nil (empty : s.out.entries = []) : s.settle.out.entries = [] := by
  have queue := (Follows.settle s).queue
  rw [empty] at queue
  exact List.map_eq_nil_iff.1 queue

theorem flush_sel (b : Batch) : b.flush.sel = b.st.sel ∧ b.flush.out = b.st.out := by
  rw [Batch.flush, postAll_eq]
  exact ⟨rfl, rfl⟩

/-! ## The entry to FAULT (R118) -/

/-- From `s` to `t` the station has come to FAULT. -/
structure Faults (s t : State) : Prop where
  st : t.mem.st = .fault
  cat : t.cat = { requester := none, responder := none }
  peers : ∀ k, t.mem.peer k = Peer.reset
  presence : t.mem.presence = none
  departWait : t.mem.departWait = 0
  drain : t.conf.drain = true
  entries : t.conf.entries = s.conf.entries.filter PendEntry.isConfirmed
  write : t.conf.write = s.conf.write.map CurrentWrite.lose
  dir : t.dir = (s.conf.entries.filter fun e => !e.isConfirmed).foldl Directory.rollBack s.dir
  offer : t.sel.membership = none
  queue : s.sel.inFlight = none → t.out.entries = []
  free : s.filter.receive = none → (∀ w ∈ s.bus.windows, w.own = false) → t.bus.rx = .stopped ∧ t.bus.windows = [] ∧
    t.bus.offTarget = none ∧ t.filter = { receive := none, window := none } ∧ t.mem.tick = none ∧
    t.conf.decision = none
  own : s.filter.receive = none → (∃ w ∈ s.bus.windows, w.own = true) →
    t.bus.windows = s.bus.windows.filter WindowRun.own ∧ (t.bus.rx = .window ∨ t.bus.rx = .preWindow) ∧
    t.bus.offTarget = some .stopped ∧ t.filter = { receive := none, window := s.filter.window } ∧
    t.mem.tick = s.mem.tick

theorem enterFault_faults (b : Batch) : Faults b.st b.enterFault.flush.settle := by
  have left := leavesGroup ((b.enter .fault).on fun s => s.setMem { s.mem with
    leave := none, learned := none, highBefore := none, listenTimer := none, listenOwed := false, joinWait := none,
    presence := none, joinOwed := false, departWait := 0 })
  obtain ⟨bus, filter, mem, cat, conf, dir⟩ := flush_settle_beside b.enterFault
  obtain ⟨sel, out⟩ := flush_sel b.enterFault
  have membership := settle_membership_none (s := b.enterFault.flush)
  have entries := settle_entries_nil (s := b.enterFault.flush)
  rw [sel] at membership
  rw [out] at entries
  generalize b.enterFault.flush.settle = t at *
  rw [enterFault_eq, on_st] at *
  generalize (leaveGroup _).st = l at *
  have switched := switchTo_eq l .stopped
  obtain ⟨line, mem', conf', dir', cat', offer, queue⟩ := left
  simp only [onLine, Prod.mk.injEq] at line
  obtain ⟨bus', filter', _⟩ := line
  have sameMem : t.mem = { l.mem with tick := (l.switchTo .stopped).mem.tick } := mem.trans (congrArg State.mem switched)
  have sameConf : t.conf = { l.conf with decision := (l.switchTo .stopped).conf.decision } :=
    conf.trans (congrArg State.conf switched)
  rw [mem'] at sameMem
  rw [conf'] at sameConf
  refine {
    st := by rw [sameMem]; rfl
    cat := (cat.trans (congrArg State.cat switched)).trans cat'
    peers := fun k => by rw [sameMem]; simp [Membership.peer]
    presence := by rw [sameMem]; rfl
    departWait := by rw [sameMem]; rfl
    drain := by rw [sameConf]
    entries := by rw [sameConf]; rfl
    write := by rw [sameConf]; rfl
    dir := (dir.trans (congrArg State.dir switched)).trans dir'
    offer := membership ((congrArg (fun u : State => u.sel.membership) switched).trans offer)
    queue := fun grounded => entries ((congrArg (fun u : State => u.out.entries) switched).trans (queue grounded))
    free := fun receive free => ?_
    own := fun receive own => ?_ }
  · rw [switchTo_free (by rw [filter']; exact receive) (by rw [bus']; exact free)] at bus filter mem conf
    obtain ⟨rx, windows, offTarget⟩ := retune_bus l .stopped
    have retuned := retune_eq l .stopped
    rw [bus, filter, mem, conf]
    refine ⟨rx, windows, offTarget, congrArg State.filter retuned, ?_, ?_⟩
    · exact congrArg (fun u : State => u.mem.tick) retuned
    · exact congrArg (fun u : State => u.conf.decision) retuned
  · obtain ⟨windows, rx, offTarget, filter'', tick⟩ := switchTo_own (s := l) (target := .stopped) (by rw [filter']; exact receive)
      (by rw [bus']; exact own)
    rw [bus, filter, mem]
    refine ⟨?_, rx, offTarget, ?_, ?_⟩
    · rw [windows, bus']; rfl
    · rw [filter'', filter']; rfl
    · rw [tick, mem']; rfl

/-- R41: the entry to FAULT at a duplicate station number, with DUPLICATE_STATION before every other notice. -/
theorem duplicateFound_settle (s : State) : let t := s.duplicateFound.settle
    Faults ((s.post .duplicateStation).setFilter { s.filter with receive := none }) t ∧
    Internal (s.post .duplicateStation) t ∧ Internal s t ∧ t.dir.window = s.dir.window ∧ t.dir.frontier = s.dir.frontier := by
  have faults := enterFault_faults (State.batch ((s.post .duplicateStation).setFilter { s.filter with receive := none }))
  have posted : Internal (s.post .duplicateStation) s.duplicateFound.settle :=
    .settle (.flush (.enterFault (b := State.batch _) (.setFilter (.refl _))))
  refine ⟨faults, posted, .trans (.post (.refl s)) posted, ?_, ?_⟩
  · rw [show s.duplicateFound.settle.dir = _ from faults.dir]
    exact foldl_keeps _ Directory.window (fun _ _ => rollBack_window _ _) _ _
  · rw [show s.duplicateFound.settle.dir = _ from faults.dir]
    exact foldl_keeps _ Directory.frontier (fun _ _ => rollBack_frontier _ _) _ _

/-! ## The result of an own frame leaves the line alone -/

section
variable {t : State} {c : Observed} {x : Bool} {f : FrameBody}

theorem onLine_of_beside (h : beside t = beside s) : onLine t = onLine s := (beside_iff.1 h).1

theorem onLine_ownConfirmed : onLine s.ownConfirmed = onLine s := by
  unfold State.ownConfirmed
  split
  · dsimp only
    split <;> rfl
  · rfl

theorem onLine_fetchResult : onLine (s.fetchResult x) = onLine s := by
  unfold State.fetchResult
  repeat' split
  all_goals rfl

theorem onLine_applyRetired {l : List Nat} : onLine (s.applyRetired l) = onLine s := by
  unfold State.applyRetired
  split <;> rfl

theorem onLine_endGroupPart : onLine b.endGroupPart.st = onLine b.st := by
  rw [endGroupPart_eq]
  exact (leavesGroup _).line

theorem onLine_leaveResult : onLine (b.leaveResult x).st = onLine b.st := by
  unfold Batch.leaveResult
  split
  · rfl
  · split
    · rfl
    · split
      · exact onLine_endGroupPart
      · dsimp only
        split
        · exact onLine_endGroupPart
        · rfl

theorem onLine_enterGroup : onLine b.enterGroup.st = onLine b.st := rfl

theorem onLine_memberResult : onLine (b.memberResult f x).st = onLine b.st := by
  unfold Batch.memberResult
  split
  · unfold Batch.foundResult
    split
    · rfl
    · split
      · rw [onLine_enterGroup, on_st, onLine_of_beside beside_postAll]
        rfl
      · rfl
  · unfold Batch.joinResult
    repeat' split
    all_goals rfl
  · exact onLine_leaveResult
  · show onLine (State.presenceResult _ _) = _
    unfold State.presenceResult
    split <;> rfl
  · rfl

/-- R98: the result of the frame in flight changes neither the bus interface nor the filter, and nothing stays in flight. -/
theorem onLine_deliver : onLine (b.deliver c x).st = (b.st.bus, b.st.filter, false) := by
  unfold Batch.deliver
  split
  · next none => simp [onLine, none]
  · have landed : onLine (if c = .none then (b.on fun s => s.setSel { s.sel with inFlight := none }).on State.ownConfirmed
        else b.on fun s => s.setSel { s.sel with inFlight := none }).st = (b.st.bus, b.st.filter, false) := by
      split
      · exact onLine_ownConfirmed
      · rfl
    dsimp only
    generalize (if c = .none then (b.on fun s => s.setSel { s.sel with inFlight := none }).on State.ownConfirmed
        else b.on fun s => s.setSel { s.sel with inFlight := none }) = d at landed ⊢
    split
    · exact landed
    · split
      · split
        · exact landed
        · exact landed
      · exact onLine_memberResult.trans landed
      · exact onLine_fetchResult.trans landed
      · exact (onLine_of_beside beside_respResult).trans landed
      · exact (onLine_of_beside (beside_finishDeparture.trans beside_recordResult)).trans landed

/-- Outside the group, FOUNDING and JOINING an own frame's result leaves the station state as it is. -/
theorem deliver_st (founding : b.st.mem.st ≠ .founding) (joining : b.st.mem.st ≠ .joining) :
    (b.deliver c x).st.mem.st = b.st.mem.st := by
  unfold Batch.deliver
  split
  · rfl
  · next f _ =>
    have landed : (if c = .none then (b.on fun s => s.setSel { s.sel with inFlight := none }).on State.ownConfirmed
        else b.on fun s => s.setSel { s.sel with inFlight := none }).st.mem.st = b.st.mem.st := by
      split
      · exact standing_st (standing_ownConfirmed _)
      · rfl
    dsimp only
    generalize (if c = .none then (b.on fun s => s.setSel { s.sel with inFlight := none }).on State.ownConfirmed
        else b.on fun s => s.setSel { s.sel with inFlight := none }) = d at landed ⊢
    rw [← landed] at founding joining ⊢
    split
    · rfl
    · split
      · split <;> rfl
      · unfold Batch.memberResult
        split
        · rw [Batch.foundResult, if_pos founding]
        · rw [Batch.joinResult, if_pos joining]
        · unfold Batch.leaveResult
          split
          · rfl
          · split
            · rfl
            · split
              · exact endGroupPart_st
              · dsimp only
                split
                · exact endGroupPart_st
                · rfl
        · exact standing_st (standing_presenceResult _)
        · rfl
      · rw [on_st]
        unfold State.fetchResult
        repeat' split
        all_goals rfl
      · exact standing_st (standing_respResult _)
      · exact standing_st ((standing_finishDeparture _).trans (standing_recordResult _))

end

end Sys2Proof.Proofs
end

section
/-! The end of a window (R37, R38, R42, R59): the state in which its outcome is decided, and what the outcome leaves to be done. -/

namespace Sys2Proof.Proofs

open Sys2Proof Sys2Proof.Machine

variable {s : State} {w : WindowRun} {rest : List WindowRun} {lowRun : Nat} {cls : Observed}

/-! ## The window leaves the bus interface -/

theorem afterWindow_eq (s : State) : s.afterWindow = { s with
    bus := { s.bus with
      rx := s.afterWindow.bus.rx, recessiveSince := s.afterWindow.bus.recessiveSince, sepEnd := s.afterWindow.bus.sepEnd }
    swp := s.afterWindow.swp } := by
  unfold State.afterWindow
  split
  · rfl
  · split
    · rw [setRx_eq]; rfl
    · rw [setRx_eq]; rfl

/-- R38: after its last window the interface is in SEPARATION for 4 bt, where no data-line fault stands. -/
theorem afterWindow_separation (rx : s.bus.rx = .window) (windows : s.bus.windows = []) (sound : s.bus.dataFault = false) :
    s.afterWindow.bus.rx = .separation ∧ s.afterWindow.bus.sepEnd = s.now + s.bt 4 := by
  unfold State.afterWindow
  simp only [rx, windows, sound, setRx_eq]
  exact ⟨rfl, rfl⟩

/-- The state in which a window's outcome is decided, a fault of the objection line found in it marked. -/
def closing (s : State) (w : WindowRun) (rest : List WindowRun) (lowRun : Nat) : State :=
  if w.faultyRun lowRun then (afterClosing s w rest).objectionFault else afterClosing s w rest

theorem afterClosing_eq (s : State) (w : WindowRun) (rest : List WindowRun) : afterClosing s w rest = { s with
    now := max s.now w.due
    bus := { s.bus with
      windows := rest
      pull := (afterClosing s w rest).bus.pull
      rx := (afterClosing s w rest).bus.rx
      recessiveSince := (afterClosing s w rest).bus.recessiveSince
      sepEnd := (afterClosing s w rest).bus.sepEnd }
    mem := { s.mem with departWait := s.mem.departWait - 1 }
    swp := (afterClosing s w rest).swp } := by
  unfold afterClosing
  dsimp only
  rw [afterWindow_eq]
  rfl

theorem closing_eq (s : State) (w : WindowRun) (rest : List WindowRun) (lowRun : Nat) : closing s w rest lowRun =
    { afterClosing s w rest with
      bus := { (afterClosing s w rest).bus with objFault := (closing s w rest lowRun).bus.objFault }
      mem := { (afterClosing s w rest).mem with faultFlag := (closing s w rest lowRun).mem.faultFlag }
      port := (closing s w rest lowRun).port } := by
  unfold closing
  split
  · rw [objectionFault_eq]
    split <;> rfl
  · rfl

/-- R37, R40: an OVERRUN, or a low run in an overlapping window, marks the objection line. -/
theorem closing_objFault (faulty : w.faultyRun lowRun = true) : (closing s w rest lowRun).bus.objFault = true := by
  unfold closing
  rw [if_pos faulty, objectionFault_eq]
  split
  · next marked => exact marked
  · rfl

/-- What a closing window leaves alone, and the windows that remain. -/
theorem closing_spec (s : State) (w : WindowRun) (rest : List WindowRun) (lowRun : Nat) : let u := closing s w rest lowRun
    u.now = max s.now w.due ∧ u.bus.windows = rest ∧ u.bus.offTarget = s.bus.offTarget ∧ u.filter = s.filter ∧
    u.conf = s.conf ∧ u.dir = s.dir ∧ u.mem.st = s.mem.st ∧ u.sel = s.sel := by
  dsimp only
  rw [closing_eq, afterClosing_eq]
  exact ⟨rfl, rfl, rfl, rfl, rfl, rfl, rfl, rfl⟩

/-- The state at the end of a window, from the state in which its outcome is decided. -/
def closed (u : State) (w : WindowRun) (cls : Observed) : Batch :=
  if w.overlapping then u.closeOverlapping w cls else u.closeJudged w cls

theorem exec_windowEnd (released : s.resetHeld = false) (windows : s.bus.windows = w :: rest) (opened : w.opened = true) :
    exec (.windowEnd lowRun) s = .next (closed (closing s w rest lowRun) w (w.observed lowRun)).flush.finishSwitch.settle := by
  show execWindowEnd lowRun s = _
  rw [execWindowEnd, act_released released, windows]
  simp only [opened, if_true]
  rfl

/-! ## The outcome -/

/-- The outcome of a window changes the journal and the confirmation unit, and posts notices. -/
theorem applyOutcome_eq (s : State) (x : Bool) : (s.applyOutcome x).st = { s with
    dir := (s.applyOutcome x).st.dir, conf := (s.applyOutcome x).st.conf, port := (s.applyOutcome x).st.port } := by
  have journal : ∀ (u : State) (c : JournalChange), u.journal c = (u.setDir c.dir).setPort (u.journal c).port := fun u c =>
    postAll_eq _ _
  have committed : ∀ (u : State) (e : PendEntry), u.postCommitted e = u.setPort (u.postCommitted e).port := fun u e => by
    unfold State.postCommitted
    split <;> rfl
  have confirmed : ∀ e, (s.confirmed e).st = { s with
      dir := (s.confirmed e).st.dir, conf := (s.confirmed e).st.conf, port := (s.confirmed e).st.port } := fun e => by
    unfold State.confirmed
    dsimp only
    split
    · split
      · dsimp only
        rw [committed, journal]
        rfl
      · split <;> rfl
    · split
      · dsimp only
        rw [journal]
        rfl
      · split <;> rfl
  unfold State.applyOutcome
  dsimp only
  split
  · rfl
  · split
    · exact confirmed _
    · rfl

theorem countBudget_eq (s : State) (c : Observed) : s.countBudget c = s.setConf (s.countBudget c).conf := by
  unfold State.countBudget
  split <;> rfl

/-- The state in which a judged window's outcome has been applied and its budget counted. -/
def outcome (s : State) (cls : Observed) : State :=
  ((s.setFilter { s.filter with window := none }).applyOutcome (decide (cls = .none))).st.countBudget cls

theorem outcome_eq (s : State) (cls : Observed) : outcome s cls = { s with
    filter := { s.filter with window := none }
    dir := (outcome s cls).dir, conf := (outcome s cls).conf, port := (outcome s cls).port } := by
  unfold outcome
  rw [countBudget_eq, applyOutcome_eq]
  rfl

/-- R59, R75: a judged window's end: the entry to FAULT where the budget is spent, else what the result or the handover leaves to
be done. -/
theorem closeJudged_eq (s : State) (w : WindowRun) (cls : Observed) : s.closeJudged w cls =
    let o := (s.setFilter { s.filter with window := none }).applyOutcome (decide (cls = .none))
    let b := (outcome s cls).batch
    if b.st.inGroup ∧ 16 ≤ b.st.conf.budget then (if w.own then b.deliver cls w.readback else b).enterFault
    else (if w.own then (b.deliver cls w.readback).on fun s => s.applyRetired o.retired
      else if cls = .none then b.handOn s.filter.window o.filled o.retired
      else b).afterOutcome s.dir.frontier := rfl

/-! ## What the outcome leaves to be done -/

/-- The unit's work after a window gives up GAP slots at most. -/
theorem afterOutcome_abides (b : Batch) (n : Nat) : Abides b.st (b.afterOutcome n).st := by
  have answered := abides_of_beside (beside_respSettle (s := b.recheck.st))
  have spent : Abides b.recheck.st.respSettle
      (if n < b.recheck.st.respSettle.dir.frontier then b.recheck.st.respSettle.endStaleWait
        else b.recheck.st.respSettle).spendNumbers := by
    refine abides_of_beside (beside_spendNumbers.trans ?_)
    split
    · exact beside_endStaleWait
    · rfl
  exact Abides.pursued.followGaps (((Abides.pursued.recheck (.refl b.st)).trans answered).trans spent)

/-- The notices owed, and what follows by itself. -/
theorem settle_flush_abides (b : Batch) : Abides b.st b.flush.settle :=
  (Abides.postAll b.st _).trans (.follows (.settle b.flush))

/-! ## An interface that waits for the own frame's window (R42) -/

theorem closeJudged_own (own : w.own = true) (outside : s.inGroup = false) (founding : s.mem.st ≠ .founding)
    (joining : s.mem.st ≠ .joining) : onLine (s.closeJudged w cls).st = (s.bus, { s.filter with window := none }, false) ∧
      (s.closeJudged w cls).st.mem.st = s.mem.st := by
  have e := outcome_eq s cls
  have mem : (outcome s cls).mem = s.mem := by rw [e]
  have line := onLine_deliver (b := (outcome s cls).batch) (c := cls) (x := w.readback)
  have st := deliver_st (b := (outcome s cls).batch) (c := cls) (x := w.readback) (by rwa [← mem] at founding)
    (by rwa [← mem] at joining)
  have apart : ¬ ((outcome s cls).batch.st.inGroup = true ∧ 16 ≤ (outcome s cls).batch.st.conf.budget) := fun c => by
    have group : (outcome s cls).inGroup = s.inGroup := Abides.inGroup_congr (by rw [mem])
    exact absurd (c.1.symm.trans (group.trans outside)) (by decide)
  rw [closeJudged_eq]
  dsimp only
  rw [if_neg apart, if_pos own]
  generalize (outcome s cls).batch.deliver cls w.readback = d at *
  have abides := afterOutcome_abides (d.on fun u => u.applyRetired
    ((s.setFilter { s.filter with window := none }).applyOutcome (decide (cls = .none))).retired) s.dir.frontier
  have retired : ∀ l, (d.st.applyRetired l).mem.st = d.st.mem.st := fun l => by
    unfold State.applyRetired
    split <;> rfl
  refine ⟨abides.line.trans (onLine_applyRetired.trans (line.trans ?_)), (abides.outside ?_).trans ((retired _).trans (st.trans ?_))⟩
  · rw [State.batch, e]
  · rw [on_st, Abides.inGroup_congr ((retired _).trans (st.trans (congrArg Membership.st mem))), outside]
  · exact congrArg Membership.st mem

theorem closeOverlapping_own (own : w.own = true) (outside : s.inGroup = false) (founding : s.mem.st ≠ .founding)
    (joining : s.mem.st ≠ .joining) : onLine (s.closeOverlapping w cls).st = (s.bus, s.filter, false) ∧
      (s.closeOverlapping w cls).st.mem.st = s.mem.st := by
  have line := onLine_deliver (b := s.batch) (c := cls) (x := w.readback)
  have st := deliver_st (b := s.batch) (c := cls) (x := w.readback) founding joining
  have abides := afterOutcome_abides (s.batch.deliver cls w.readback) s.dir.frontier
  rw [State.closeOverlapping, if_pos own]
  exact ⟨abides.line.trans line, (abides.outside ((Abides.inGroup_congr st).trans outside)).trans st⟩

/-- The window's end, from the state in which its outcome is decided, for an own frame outside the group. -/
theorem closes_own (own : w.own = true) (outside : s.inGroup = false) (founding : s.mem.st ≠ .founding)
    (joining : s.mem.st ≠ .joining) : ∃ filter : Filter, filter.receive = s.filter.receive ∧
      onLine (closed s w cls).st = (s.bus, filter, false) ∧ (closed s w cls).st.mem.st = s.mem.st := by
  unfold closed
  split
  · exact ⟨s.filter, rfl, closeOverlapping_own own outside founding joining⟩
  · exact ⟨{ s.filter with window := none }, rfl, closeJudged_own own outside founding joining⟩

/-- R42: the switching that waited for the own frame's window is made. -/
theorem finishSwitch_free {target : RxState} (waiting : s.bus.offTarget = some target) (windows : s.bus.windows = [])
    (receive : s.filter.receive = none) : s.finishSwitch = s.retune target := by
  unfold State.finishSwitch
  rw [waiting]
  simp [State.ownUnderWay, Filter.receivesOwn, receive, windows]

theorem flush_beside (b : Batch) : beside b.flush = beside b.st := beside_postAll

theorem keepsFixed_of_works {o : Host.Outcome State Fault Refusal} {t : State} (works : Works o s) (e : o = .next t) :
    s.KeepsFixed t := by
  obtain ⟨n, u, next, internal⟩ := works
  exact Host.Outcome.next.inj (e.symm.trans next) ▸ keepsFixed_of_internal internal

theorem closed_now (u : State) (w : WindowRun) (cls : Observed) : (closed u w cls).flush.finishSwitch.settle.now = u.now := by
  refine now_of_internal (.settle (.finishSwitch (.flush ?_)))
  unfold closed
  split
  · exact .closeOverlapping (.refl u)
  · exact .closeJudged (.refl u)

/-- Settles O25: the entry to FAULT by `duplicateFound_settle`, the end of the own frame's window by `closes_own`. -/
theorem duplicateStationLeadsToFault : Obligations.DuplicateStationLeadsToFault := by
  refine ⟨fun s r released on rx target receive other => ?_,
    fun s w lowRun target released windows opened own receive waiting outside founding joining => ?_⟩
  · have exec_eq : exec .duplicateStation s = .next s.duplicateFound.settle := by
      show execDuplicateStation s = _
      rw [execDuplicateStation, act_released released, receive]
      simp [State.checksNumber, on, Bus.steady, Bus.on, rx, target, other]
    obtain ⟨faults, posted, works, window, frontier⟩ := duplicateFound_settle s
    generalize s.duplicateFound.settle = t at *
    refine ⟨t, exec_eq, faults.st, faults.cat, fun free => ?_, fun own => ?_, faults.peers, faults.presence,
      faults.departWait, faults.drain, faults.entries, faults.offer, faults.queue, fun room => ?_,
      keepsFixed_of_internal (n := s.now) (by rwa [at_self]), now_of_internal works, window, frontier⟩
    · obtain ⟨rx, windows, offTarget, filter, tick, _⟩ := faults.free rfl free
      exact ⟨rx, windows, offTarget, filter, tick⟩
    · exact faults.own rfl own
    · have first : (s.post .duplicateStation).port.notices = s.port.notices ++ [.duplicateStation] := by
        simp [State.post, LocalPort.post, room]
      exact first ▸ posted.notices
  · have exec_eq := exec_windowEnd (lowRun := lowRun) released windows opened
    obtain ⟨now, noWindow, offTarget, filter, _, _, st, _⟩ := closing_spec s w [] lowRun
    have last := closed_now (closing s w [] lowRun) w (w.observed lowRun)
    have fixed := keepsFixed_of_works (windowEnd_works lowRun) exec_eq
    obtain ⟨filter', receive', line, st'⟩ := closes_own (s := closing s w [] lowRun) (cls := w.observed lowRun) own
      ((Abides.inGroup_congr st).trans outside) (by rwa [st]) (by rwa [st])
    refine ⟨_, exec_eq, last.trans now, ?_⟩
    generalize closed (closing s w [] lowRun) w (w.observed lowRun) = b at *
    obtain ⟨flushed, mem, _⟩ := beside_iff.1 (flush_beside b)
    rw [line] at flushed
    simp only [onLine, Prod.mk.injEq, Option.isSome_eq_false_iff, Option.isNone_iff_eq_none] at flushed
    obtain ⟨bus, filter'', grounded⟩ := flushed
    have switched : b.flush.finishSwitch = b.flush.retune target :=
      finishSwitch_free (by rw [bus, offTarget, waiting]) (by rw [bus, noWindow]) (by rw [filter'', receive', filter, receive])
    rw [switched] at fixed ⊢
    obtain ⟨rx, windows, target'⟩ := retune_bus b.flush target
    have follows := Follows.settle (b.flush.retune target)
    have retuned := retune_eq b.flush target
    generalize b.flush.retune target = v at *
    have same := follows.same
    have inFlight := follows.inFlight
    generalize v.settle = t at *
    have sel : v.sel = b.flush.sel := (congrArg State.sel retuned :)
    have mem' : t.mem = { b.flush.mem with tick := none } := (congrArg State.mem same :).trans (congrArg State.mem retuned :)
    have bus' : t.bus = v.bus := (congrArg State.bus same :)
    refine ⟨by rw [bus', rx], by rw [bus', windows], by rw [bus', target'], by rw [mem'], ?_, ?_, ?_, fixed⟩
    · exact (congrArg State.filter same :).trans (congrArg State.filter retuned :)
    · rw [inFlight, sel, grounded]
    · rw [mem', mem, st', st]

end Sys2Proof.Proofs
end

section
/-! A voided REPLAY's TENTATIVE slot returns to GAP (R18, R69): what holds each GSN, and the counts of the slots. -/

namespace Sys2Proof.Proofs

open Sys2Proof Sys2Proof.Machine

variable {d e : Directory} {g h : Nat} {x y : Slot} {p : PendEntry} {l : List PendEntry}

/-! ## One slot -/

/-- A slot that takes another descriptor of its GSN changes what holds that GSN only. -/
theorem held_put_of_held (k : d.held x.gsn = some y) : (d.put x).held g = if g = x.gsn then some x else d.held g := by
  split
  · next same => rw [same, held_put_same]
  · next other =>
    by_cases slot : slotOf x.gsn = slotOf g
    · obtain ⟨stands, gsn⟩ := (Directory.held_eq _ _ _).1 k
      have before : d.held g = none := held_of_slotAt_ne (slot ▸ stands) (gsn ▸ Ne.symm other)
      rw [before]
      exact held_of_slotAt_ne (x := x) (by rw [Directory.slotAt_put, if_pos slot]) (Ne.symm other)
    · exact held_put_of_apart slot

theorem holdsTentative_iff : d.holdsTentative g = true ↔ ∃ i, d.held g = some (.tentative g i) := by
  unfold Directory.holdsTentative
  split
  · next n i held =>
    obtain rfl : n = g := ((Directory.held_eq _ _ _).1 held).2
    exact ⟨fun _ => ⟨i, held⟩, fun _ => rfl⟩
  · next other =>
    refine ⟨(nomatch ·), ?_⟩
    rintro ⟨i, held⟩
    exact absurd held (other g i)

/-- A TENTATIVE slot that returns to GAP is one GAP slot more. -/
theorem put_gap_counts (k : d.holdsTentative g = true) :
    (d.put (.gap g)).lostCount = d.lostCount ∧ (d.put (.gap g)).gapCount = d.gapCount + 1 := by
  obtain ⟨i, held⟩ := holdsTentative_iff.1 k
  have slot : d.slotAt (slotOf (Slot.gap g).gsn) = some (.tentative g i) := ((Directory.held_eq _ _ _).1 held).1
  constructor
  · show d.lostCount + 0 - (isLostSlot (d.slotAt (slotOf (Slot.gap g).gsn))).toNat = _
    rw [slot]
    rfl
  · show d.gapCount + 1 - (isGapSlot (d.slotAt (slotOf (Slot.gap g).gsn))).toNat = _
    rw [slot]
    rfl

/-! ## The entries that are voided -/

/-- Voiding the entries returns the slot of the GSN to GAP. -/
def RollsBack (d : Directory) (l : List PendEntry) (g : Nat) : Prop :=
  (∃ e ∈ l, e.status = .writtenEarly ∧ e.gsn = g) ∧ d.holdsTentative g = true

theorem rollBack_of_rolls (status : p.status = .writtenEarly) (k : d.holdsTentative p.gsn = true) :
    d.rollBack p = d.put (.gap p.gsn) := if_pos ⟨status, k⟩

/-- The first entry returns its slot to GAP, or changes nothing. -/
theorem rollBack_cases (d : Directory) (p : PendEntry) (l : List PendEntry) :
    (RollsBack d (p :: l) p.gsn ∧ d.holdsTentative p.gsn = true ∧ d.rollBack p = d.put (.gap p.gsn)) ∨
    (d.rollBack p = d ∧ ∀ g, RollsBack d (p :: l) g ↔ RollsBack d l g) := by
  by_cases rolls : p.status = .writtenEarly ∧ d.holdsTentative p.gsn = true
  · exact .inl ⟨⟨⟨p, by simp, rolls.1, rfl⟩, rolls.2⟩, rolls.2, rollBack_of_rolls rolls.1 rolls.2⟩
  · refine .inr ⟨if_neg rolls, fun g => ⟨?_, fun ⟨⟨e, mem, early⟩, k⟩ => ⟨⟨e, by simp [mem], early⟩, k⟩⟩⟩
    rintro ⟨⟨e, mem, status, rfl⟩, k⟩
    rcases List.mem_cons.1 mem with rfl | mem
    · exact absurd ⟨status, k⟩ rolls
    · exact ⟨⟨e, mem, status, rfl⟩, k⟩

/-- What holds the GSNs after one slot has returned to GAP. -/
theorem held_put_gap (k : d.holdsTentative h = true) : (d.put (.gap h)).held g = if g = h then some (.gap h) else d.held g := by
  obtain ⟨i, held⟩ := holdsTentative_iff.1 k
  exact held_put_of_held (x := .gap h) held

theorem holdsTentative_put_gap (k : d.holdsTentative h = true) :
    (d.put (.gap h)).holdsTentative g = true ↔ g ≠ h ∧ d.holdsTentative g = true := by
  rw [holdsTentative_iff, held_put_gap k, holdsTentative_iff]
  by_cases same : g = h <;> simp [same]

theorem rollsBack_put_gap (k : d.holdsTentative h = true) : RollsBack (d.put (.gap h)) l g ↔ g ≠ h ∧ RollsBack d l g := by
  unfold RollsBack
  rw [holdsTentative_put_gap k]
  exact ⟨fun ⟨early, other, tent⟩ => ⟨other, early, tent⟩, fun ⟨other, early, tent⟩ => ⟨early, other, tent⟩⟩

theorem RollsBack.cons (k : RollsBack d l g) : RollsBack d (p :: l) g :=
  let ⟨⟨e, mem, early⟩, tent⟩ := k
  ⟨⟨e, List.mem_cons_of_mem _ mem, early⟩, tent⟩

theorem held_foldl_rollBack_of_not (k : ¬ RollsBack d l g) : (l.foldl Directory.rollBack d).held g = d.held g := by
  induction l generalizing d with
  | nil => rfl
  | cons p rest ih =>
    rw [List.foldl_cons]
    rcases rollBack_cases d p rest with ⟨first, tent, back⟩ | ⟨back, same⟩
    · have other : g ≠ p.gsn := fun e => k (e ▸ first)
      rw [back, ih fun c => k ((rollsBack_put_gap tent).1 c).2.cons, held_put_gap tent, if_neg other]
    · rw [back, ih fun c => k ((same g).2 c)]

theorem held_foldl_rollBack (k : RollsBack d l g) : (l.foldl Directory.rollBack d).held g = some (.gap g) := by
  induction l generalizing d with
  | nil => obtain ⟨⟨_, mem, _⟩, _⟩ := k; cases mem
  | cons p rest ih =>
    rw [List.foldl_cons]
    rcases rollBack_cases d p rest with ⟨_, tent, back⟩ | ⟨back, same⟩
    · rw [back]
      by_cases own : g = p.gsn
      · rw [held_foldl_rollBack_of_not fun c => ((rollsBack_put_gap tent).1 c).1 own, held_put_gap tent, if_pos own, own]
      · obtain ⟨⟨e, mem, status, rfl⟩, tent'⟩ := k
        have later : e ∈ rest := (List.mem_cons.1 mem).resolve_left fun c => own (c ▸ rfl)
        exact ih ((rollsBack_put_gap tent).2 ⟨own, ⟨e, later, status, rfl⟩, tent'⟩)
    · rw [back]
      exact ih ((same g).1 k)

theorem foldl_rollBack_of_none (k : ∀ g, ¬ RollsBack d l g) : l.foldl Directory.rollBack d = d := by
  induction l generalizing d with
  | nil => rfl
  | cons p rest ih =>
    rw [List.foldl_cons]
    rcases rollBack_cases d p rest with ⟨first, _, _⟩ | ⟨back, same⟩
    · exact absurd first (k _)
    · rw [back]
      exact ih fun g c => k g ((same g).2 c)

theorem foldl_rollBack_of_one (k : RollsBack d l g) (one : ∀ n, RollsBack d l n → n = g) :
    l.foldl Directory.rollBack d = d.put (.gap g) := by
  induction l with
  | nil => obtain ⟨⟨_, mem, _⟩, _⟩ := k; cases mem
  | cons p rest ih =>
    rw [List.foldl_cons]
    rcases rollBack_cases d p rest with ⟨first, tent, back⟩ | ⟨back, same⟩
    · rw [back, ← one _ first]
      refine foldl_rollBack_of_none fun n c => ?_
      obtain ⟨other, rolls⟩ := (rollsBack_put_gap tent).1 c
      exact other ((one n rolls.cons).trans (one _ first).symm)
    · rw [back]
      exact ih ((same g).1 k) fun n c => one n ((same n).2 c)

theorem foldl_rollBack_lostCount (l : List PendEntry) (d : Directory) : (l.foldl Directory.rollBack d).lostCount = d.lostCount := by
  refine foldl_keeps _ Directory.lostCount (fun d p => ?_) _ _
  rcases rollBack_cases d p [] with ⟨_, tent, back⟩ | ⟨back, _⟩
  · rw [back, (put_gap_counts tent).1]
  · rw [back]

/-! ## What is given up afterwards (R23, R131) -/

/-- From `d` to `e` GAP slots have been given up as LOST at most. -/
structure GivesUp (d e : Directory) : Prop where
  window : e.window = d.window
  frontier : e.frontier = d.frontier
  held : ∀ g, e.held g = d.held g ∨ (d.held g = some (.gap g) ∧ e.held g = some (.lost g))
  counts : d.Counted → d.lostCount ≤ e.lostCount ∧ e.gapCount + e.lostCount = d.gapCount + d.lostCount

theorem GivesUp.refl (d : Directory) : GivesUp d d := ⟨rfl, rfl, fun _ => .inl rfl, fun _ => ⟨le_rfl, rfl⟩⟩

theorem Abides.givesUp {s t : State} (h : Abides s t) : GivesUp s.dir t.dir :=
  ⟨h.window, h.frontier, h.held, fun c => (h.counts c).2⟩

/-- R18, R58, R123, R124: what the voiding of the entries, and what is given up afterwards, make of the slots. -/
structure Voids (d e : Directory) (rolled : Nat → Prop) : Prop where
  window : e.window = d.window
  frontier : e.frontier = d.frontier
  rolledBack : ∀ g, rolled g → e.held g = some (.gap g) ∨ e.held g = some (.lost g)
  others : ∀ g, ¬ rolled g → e.held g = d.held g ∨ (d.held g = some (.gap g) ∧ e.held g = some (.lost g))
  counts : d.Counted → d.lostCount ≤ e.lostCount ∧
    ((∀ g, ¬ rolled g) → e.gapCount + e.lostCount = d.gapCount + d.lostCount) ∧
    (∀ g, rolled g → (∀ x, rolled x → x = g) → e.gapCount + e.lostCount = d.gapCount + d.lostCount + 1)

theorem voids_of_givesUp (k : GivesUp (l.foldl Directory.rollBack d) e) : Voids d e (RollsBack d l) where
  window := k.window.trans (foldl_keeps _ Directory.window (fun _ _ => rollBack_window _ _) _ _)
  frontier := k.frontier.trans (foldl_keeps _ Directory.frontier (fun _ _ => rollBack_frontier _ _) _ _)
  rolledBack g rolls := by
    rcases k.held g with same | ⟨_, lost⟩
    · exact .inl (same.trans (held_foldl_rollBack rolls))
    · exact .inr lost
  others g stays := by
    rw [← held_foldl_rollBack_of_not stays]
    exact k.held g
  counts c := by
    obtain ⟨rises, sum⟩ := k.counts (Directory.Counted.foldl (fun _ _ c => c.rollBack) _ c)
    rw [foldl_rollBack_lostCount] at rises sum
    refine ⟨rises, fun stays => ?_, fun g rolls one => ?_⟩
    · rw [foldl_rollBack_of_none stays] at sum
      exact sum
    · rw [foldl_rollBack_of_one rolls one, (put_gap_counts rolls.2).2] at sum
      omega

end Sys2Proof.Proofs
end

section
/-! A window closed with an objection (R37, R38, R69, R74, R75): its outcome, and the station after it, in the group or in FAULT. -/

namespace Sys2Proof.Proofs

open Sys2Proof Sys2Proof.Machine

variable {s t v : State} {b : Batch} {w : WindowRun} {lowRun : Nat} {cls : Observed} {d : DecisionRecord}

/-! ## The outcome -/

/-- The entries that await their window. -/
def awaitingEntries (s : State) : List PendEntry := s.conf.entries.filter fun e => !e.isConfirmed

/-- From `s` to `v` an objection to the frame with this decision has been applied and counted. -/
structure Objected (d : DecisionRecord) (s v : State) : Prop where
  dir : v.dir = (if d.hasEntry then awaitingEntries s else []).foldl Directory.rollBack s.dir
  entries : v.conf.entries = if d.hasEntry then s.conf.entries.filter PendEntry.isConfirmed else s.conf.entries
  voided : d.hasEntry = true → (∃ e ∈ s.conf.entries, e.isConfirmed = false) → v.conf.write = s.conf.write.map CurrentWrite.lose
  kept : d.hasEntry = false → v.conf.write = s.conf.write
  write : v.conf.write = s.conf.write ∨ v.conf.write = s.conf.write.map CurrentWrite.lose
  budget : v.conf.budget = nextBudget s.conf.budget d.decision cls
  decision : v.conf.decision = none

/-- R69: the state in which an objected frame's entry is voided, where it has one. -/
def applied (s : State) (d : DecisionRecord) : State :=
  if d.hasEntry = true ∧ ∃ e ∈ s.conf.entries, e.isConfirmed = false then s.voidPending else s

theorem applied_setFilter {f : Filter} : applied (s.setFilter f) d = (applied s d).setFilter f := by
  by_cases voided : d.hasEntry = true ∧ ∃ e ∈ s.conf.entries, e.isConfirmed = false
  · rw [applied, if_pos (by exact voided), applied, if_pos voided]
    rfl
  · rw [applied, if_neg (by exact voided), applied, if_neg voided]

theorem applyOutcome_objected (decision : s.conf.decision = some d) : (s.applyOutcome false).st = applied s d := by
  unfold State.applyOutcome applied
  rw [decision]
  cases has : d.hasEntry
  · simp [has]
  · cases found : s.conf.entries.find? fun e => !e.isConfirmed with
    | none => simp_all
    | some e =>
      have awaits := List.find?_some found
      have mem := List.mem_of_find?_eq_some found
      simp only [Bool.not_eq_true'] at awaits
      rw [if_pos ⟨rfl, e, mem, awaits⟩]
      simp [has]

theorem countBudget_of_decision (decision : s.conf.decision = some d) (group : s.inGroup = true) : s.countBudget cls =
    s.setConf { s.conf with budget := nextBudget s.conf.budget d.decision cls, decision := none } := by
  unfold State.countBudget
  rw [decision]
  dsimp only
  rw [if_pos group]

theorem voidPending_eq (s : State) : s.voidPending = { s with
    dir := (awaitingEntries s).foldl Directory.rollBack s.dir
    conf := { s.conf with entries := s.conf.entries.filter PendEntry.isConfirmed, write := s.conf.write.map CurrentWrite.lose } } :=
  rfl

/-- The outcome of an objection, where it voids the frame's entry and where the frame has none. -/
theorem outcome_eq_of_objected (decision : s.conf.decision = some d) (objected : cls ≠ .none) (group : s.inGroup = true) :
    (outcome s cls).dir = (applied s d).dir ∧ (outcome s cls).conf =
      { (applied s d).conf with budget := nextBudget s.conf.budget d.decision cls, decision := none } := by
  have voided : (State.applyOutcome (s.setFilter { s.filter with window := none }) false).st =
      (applied s d).setFilter { s.filter with window := none } :=
    (applyOutcome_objected (s := s.setFilter { s.filter with window := none }) decision).trans applied_setFilter
  have standing : (applied s d).conf.decision = some d ∧ (applied s d).inGroup = true ∧
      (applied s d).conf.budget = s.conf.budget := by
    unfold applied
    split
    · exact ⟨decision, group, rfl⟩
    · exact ⟨decision, group, rfl⟩
  obtain ⟨decision', group', budget⟩ := standing
  unfold outcome
  rw [decide_eq_false objected, voided]
  generalize applied s d = u at *
  rw [countBudget_of_decision (s := u.setFilter { s.filter with window := none }) decision' group', ← budget]
  exact ⟨rfl, rfl⟩

theorem outcome_objected (decision : s.conf.decision = some d) (objected : cls ≠ .none) (group : s.inGroup = true) :
    Objected (cls := cls) d s (outcome s cls) := by
  obtain ⟨dir, conf⟩ := outcome_eq_of_objected decision objected group
  by_cases voided : d.hasEntry = true ∧ ∃ e ∈ s.conf.entries, e.isConfirmed = false
  · rw [applied, if_pos voided, voidPending_eq] at dir conf
    have has := voided.1
    exact {
      dir := by rw [dir, has]; rfl
      entries := by rw [conf, has]; rfl
      voided := fun _ _ => by rw [conf]
      kept := fun no => by rw [has] at no; cases no
      write := .inr (by rw [conf])
      budget := by rw [conf]
      decision := by rw [conf] }
  · rw [applied, if_neg voided] at dir conf
    have unconfirmed : d.hasEntry = true → ∀ e ∈ s.conf.entries, e.isConfirmed = true := fun has e mem => by
      by_contra awaits
      exact voided ⟨has, e, mem, Bool.not_eq_true _ ▸ awaits⟩
    refine {
      dir := ?_
      entries := ?_
      voided := fun has awaits => absurd ⟨has, awaits⟩ voided
      kept := fun _ => by rw [conf]
      write := .inl (by rw [conf])
      budget := by rw [conf]
      decision := by rw [conf] }
    · rw [dir]
      cases has : d.hasEntry
      · rfl
      · have nothing : awaitingEntries s = [] := List.filter_eq_nil_iff.2 fun e mem => by simp [unconfirmed has e mem]
        rw [nothing]
        rfl
    · rw [conf]
      cases has : d.hasEntry
      · rfl
      · exact (List.filter_eq_self.2 (unconfirmed has)).symm

/-! ## The station after it -/

theorem finishSwitch_of_none (h : s.bus.offTarget = none) : s.finishSwitch = s := by
  unfold State.finishSwitch
  rw [h]

theorem observedOf_ne_none {n : Nat} (h : 0 < n) : observedOf n ≠ .none := by
  unfold observedOf
  rw [if_neg (by omega)]
  repeat' split
  all_goals decide

/-- R38: the last window's end, where no data-line fault stands. -/
theorem closing_separation (rx : s.bus.rx = .window) (sound : s.bus.dataFault = false) : let u := closing s w [] lowRun
    u.bus.rx = .separation ∧ u.bus.sepEnd = max s.now w.due + s.bt 4 := by
  have after := afterWindow_separation (s := ((s.at w.due).setMem { s.mem with departWait := s.mem.departWait - 1 }).setBus
    { s.bus with windows := [], pull := s.bus.pull.filter fun p => decide (max s.now w.due < p.ends) }) rx rfl sound
  dsimp only
  rw [closing_eq]
  exact after

/-- R75: an objection to another station's frame: the entry to FAULT where the budget is spent, else what it leaves to be done. -/
theorem closed_objected (judged : w.overlapping = false) (other : w.own = false) (objected : cls ≠ .none) : closed s w cls =
    if (outcome s cls).inGroup ∧ 16 ≤ (outcome s cls).conf.budget then (outcome s cls).batch.enterFault
    else (outcome s cls).batch.afterOutcome s.dir.frontier := by
  rw [closed, judged, if_neg (by decide), closeJudged_eq]
  dsimp only
  simp only [other, Bool.false_eq_true, if_false, if_neg objected]
  rfl

theorem Abides.bus (h : Abides s t) : t.bus = s.bus := congrArg Prod.fst h.line

/-- What gives up GAP slots at most at the end of an event. -/
theorem Abides.settled (h : Abides v b.st) (steady : v.bus.offTarget = none) : Abides v b.flush.finishSwitch.settle := by
  have flushed : Abides b.st b.flush := .postAll b.st _
  rw [finishSwitch_of_none (by rw [flushed.bus, h.bus, steady])]
  exact h.trans (settle_flush_abides b)

/-- R118: at the budget's limit it enters FAULT. -/
theorem enterFault_settle (receive : v.filter.receive = none) (windows : v.bus.windows = []) :
    Faults v v.batch.enterFault.flush.finishSwitch.settle := by
  have faults := enterFault_faults v.batch
  obtain ⟨bus, _⟩ := flush_settle_beside v.batch.enterFault
  obtain ⟨flushed, _⟩ := beside_iff.1 (flush_beside v.batch.enterFault)
  have same : v.batch.enterFault.flush.bus = v.batch.enterFault.st.bus := congrArg Prod.fst flushed
  obtain ⟨_, _, steady, _⟩ := faults.free receive (by simp [State.batch, windows])
  rw [bus, ← same] at steady
  rw [finishSwitch_of_none steady]
  exact faults

theorem lose_lose (c : Option CurrentWrite) : (c.map CurrentWrite.lose).map CurrentWrite.lose = c.map CurrentWrite.lose := by
  cases c with
  | none => rfl
  | some c =>
    cases early : c.early <;> simp [CurrentWrite.lose, early]

/-- R118: the entry to FAULT after the outcome voids what awaited its window, once. -/
theorem Faults.after_objected (k : Objected (cls := cls) d s v) (h : Faults v t) :
    t.conf.entries = s.conf.entries.filter PendEntry.isConfirmed ∧ t.conf.write = s.conf.write.map CurrentWrite.lose ∧
    t.dir = (awaitingEntries s).foldl Directory.rollBack s.dir := by
  refine ⟨?_, ?_, ?_⟩
  · rw [h.entries, k.entries]
    split
    · rw [List.filter_filter]
      simp
    · rfl
  · rw [h.write]
    rcases k.write with same | lost
    · rw [same]
    · rw [lost, lose_lose]
  · rw [h.dir, k.entries, k.dir]
    split
    · have nothing : (s.conf.entries.filter PendEntry.isConfirmed).filter (fun e => !e.isConfirmed) = [] := by
        simp [List.filter_filter]
      rw [nothing]
      rfl
    · rfl

/-! ## The statement -/

theorem rollsBack_awaiting {p : Prop} [Decidable p] {g : Nat} :
    RollsBack s.dir (if p then awaitingEntries s else []) g ↔ p ∧
      (∃ e, (e ∈ s.conf.entries ∧ e.isConfirmed = false) ∧ e.status = .writtenEarly ∧ e.gsn = g) ∧
      ∃ i, s.dir.held g = some (.tentative g i) := by
  unfold RollsBack
  rw [holdsTentative_iff]
  split
  · next h => simp [h, awaitingEntries]
  · next h => simp [h]

theorem nextBudget_objected {n : Nat} {x : Decision} (objected : cls ≠ .none) :
    nextBudget n x cls = if x = .object .content then min 16 (n + 1) else n := by
  cases x with
  | object c => cases c <;> rfl
  | noObjection => simp [nextBudget, objected]
  | addressedElsewhere => simp [nextBudget, objected]

/-- Settles O30: the outcome by `outcome_objected`; then `Abides.settled` in the group, `enterFault_settle` where the budget is
spent. -/
theorem windowEndVoidsTheFrame : Obligations.WindowEndVoidsTheFrame := by
  intro s w lowRun d released rx windows opened judged other sound steady receive within decision limit pulled faults awaiting
    rolledBack lostEntry
  obtain ⟨now, noWindow, steady', filter, conf, dir, st, _⟩ := closing_spec s w [] lowRun
  obtain ⟨rx', sepEnd⟩ := closing_separation (w := w) (lowRun := lowRun) rx sound
  have exec_eq := exec_windowEnd (lowRun := lowRun) released windows opened
  have last := (closed_now (closing s w [] lowRun) w (w.observed lowRun)).trans now
  have fixed := keepsFixed_of_works (windowEnd_works lowRun) exec_eq
  have marked : 32 < lowRun → (closing s w [] lowRun).bus.objFault = true := fun long =>
    closing_objFault (by simp [WindowRun.faultyRun, long])
  have objected : w.observed lowRun ≠ .none := observedOf_ne_none pulled
  generalize w.observed lowRun = cls at *
  generalize closing s w [] lowRun = u at *
  have group : u.inGroup = true := inGroup_iff.2 (by rwa [st])
  have outcome := outcome_objected (by rwa [conf]) objected group
  have same := outcome_eq u cls
  rw [closed_objected judged other objected] at exec_eq last fixed
  generalize Proofs.outcome u cls = v at *
  have rolled : RollsBack s.dir (if d.hasEntry = true ∨ faults then awaitingEntries s else []) = rolledBack :=
    funext fun _ => propext rollsBack_awaiting
  have waiting : awaitingEntries u = awaitingEntries s := by rw [awaitingEntries, conf]; rfl
  have bus : v.bus = u.bus := by rw [same]
  have group' : v.inGroup = u.inGroup := Abides.inGroup_congr (by rw [same])
  have receive' : v.filter.receive = none := by rw [same, ← receive, ← filter]
  have spent : v.inGroup = true ∧ 16 ≤ v.conf.budget ↔ faults := by
    rw [outcome.budget, nextBudget_objected objected, conf, group']
    split
    · next content => simp only [group, faults, content, true_and]; omega
    · next content => simp only [group, faults, content, true_and, false_and, iff_false]; omega
  refine ⟨_, exec_eq, last, ?_⟩
  by_cases fault : faults
  · rw [if_pos (spent.2 fault)] at fixed ⊢
    have station := enterFault_settle (v := v) receive' (bus ▸ noWindow)
    generalize v.batch.enterFault.flush.finishSwitch.settle = t at *
    obtain ⟨entries, write, voided⟩ := station.after_objected outcome
    obtain ⟨stopped, windows, _, filter', _, decision'⟩ := station.free receive' (by simp [bus, noWindow])
    rw [conf] at entries write
    rw [waiting, dir] at voided
    have voids : Voids s.dir t.dir rolledBack := rolled ▸ voids_of_givesUp (by rw [if_pos (.inr fault), voided]; exact .refl _)
    refine ⟨fun _ _ => ⟨entries, write⟩, fun _ no => absurd fault no, voids.rolledBack, voids.others, voids.counts, voids.window,
      voids.frontier, decision', windows, by rw [filter'], fixed, fun few => ?_, fun _ => ⟨station.st, stopped, station.drain, write⟩,
      fun _ => .inr station.st⟩
    obtain ⟨content, full⟩ := fault
    rcases few with away | few
    · exact absurd content away
    · omega
  · rw [if_neg fun c => fault (spent.1 c)] at fixed last ⊢
    have abides : Abides v (v.batch.afterOutcome u.dir.frontier).flush.finishSwitch.settle :=
      (afterOutcome_abides v.batch u.dir.frontier).settled (bus ▸ steady'.trans steady)
    generalize (v.batch.afterOutcome u.dir.frontier).flush.finishSwitch.settle = t at *
    have voids : Voids s.dir t.dir rolledBack := rolled ▸ voids_of_givesUp (by
      have gives := abides.givesUp
      rw [outcome.dir, waiting, dir] at gives
      simpa only [fault, or_false] using gives)
    have filter' : t.filter = v.filter := congrArg (fun l => l.2.1) abides.line
    have stays : t.mem.st = .syncing ∨ t.mem.st = .member := inGroup_iff.1
      (abides.group.trans (group'.trans group))
    have bus' := abides.bus.trans bus
    have conf' := abides.conf
    refine ⟨fun has awaits => ⟨?_, ?_⟩, fun no _ => ?_, voids.rolledBack, voids.others, voids.counts, voids.window, voids.frontier,
      by rw [conf', outcome.decision], by rw [bus', noWindow], by rw [filter', same], fixed, fun _ => ⟨?_, fun no => ?_, stays, ?_, ?_⟩,
      fun c => absurd c fault, fun long => .inl (by rw [bus', marked long])⟩
    · rw [conf', outcome.entries, if_pos has, conf]
    · rw [conf', outcome.voided has (by rwa [conf]), conf]
      rfl
    · rw [conf', outcome.kept no, conf]
    · rw [conf', outcome.budget, nextBudget_objected objected, conf]
      split
      · next content => exact min_eq_right (by have : s.conf.budget ≠ 15 := fun full => fault ⟨content, full⟩; omega)
      · rfl
    · rw [conf', outcome.entries, no, conf]
      rfl
    · rw [bus', rx']
    · rw [bus', sepEnd, last]

end Sys2Proof.Proofs
end

section
/-! A lost arbitration (R31, R87, R98, R107, R117, R125): the frame returns to the offers, and what follows leaves it there. -/

namespace Sys2Proof.Proofs

open Sys2Proof Sys2Proof.Machine

variable {s t u : State} {b : Batch} {r : ReceiveRecord} {f : InFlight} {c : RequesterCtx} {k : Station}

/-! ## The frame's return -/

/-- The return of a frame changes the offers and the outbound queue. -/
theorem returnOffer_eq (s : State) (f : InFlight) : s.returnOffer f =
    { s with sel := (s.returnOffer f).sel, out := (s.returnOffer f).out } := by
  unfold State.returnOffer
  dsimp only
  repeat' split
  all_goals rfl

theorem returnOffer_inFlight : (s.returnOffer f).sel.inFlight = none := by
  unfold State.returnOffer State.keepPresence State.offer Selector.setOffer
  dsimp only
  repeat' split
  all_goals rfl

/-- R87: a RECORD's entry is WAITING again. -/
theorem returnOffer_record {h : OutEntry} {rest : List OutEntry} (wanted : f.discard = false) (sender : f.sender = .outbound)
    (entries : s.out.entries = h :: rest) : (s.returnOffer f).out.entries = { h with state := .waiting } :: rest := by
  simp [State.returnOffer, wanted, sender, entries, State.setSel, State.setHead, State.setOut]

/-- R98: any other frame is offered again as it was sent. -/
theorem returnOffer_offer (wanted : f.discard = false) (sender : f.sender ≠ .outbound) :
    (s.returnOffer f).sel = { s.sel.setOffer f.sender (some f.body) with inFlight := none, presenceKept := some s.presenceBody } := by
  unfold State.returnOffer
  rw [wanted]
  cases f with
  | mk who body discard =>
    cases who with
    | outbound => exact absurd rfl sender
    | sweep => rfl
    | membership => rfl
    | requester => rfl
    | responder => rfl

/-- The state in which the frame has returned and the station goes on as a receiver. -/
def lostFrame (s : State) (r : ReceiveRecord) (f : InFlight) : State :=
  ((s.returnOffer f).setFilter { s.filter with receive := some { r with own := false } }).setMem { s.mem with departWait := 0 }

theorem lostFrame_eq (s : State) (r : ReceiveRecord) (f : InFlight) : lostFrame s r f = { s with
    sel := (s.returnOffer f).sel, out := (s.returnOffer f).out
    filter := { s.filter with receive := some { r with own := false } }, mem := { s.mem with departWait := 0 } } := by
  rw [lostFrame, returnOffer_eq]
  rfl

theorem exec_arbitrationLost (released : s.resetHeld = false) (sending : s.sending = some r) (flying : s.sel.inFlight = some f) :
    exec .arbitrationLost s = .next (lostFrame s r f).batch.leaveLost.recheck.followGaps.flush.settle := by
  have mem : (s.returnOffer f).mem = s.mem := by rw [returnOffer_eq]
  have filter : (s.returnOffer f).filter = s.filter := by rw [returnOffer_eq]
  show execArbitrationLost s = _
  rw [execArbitrationLost, act_released released, sending, flying, lostFrame, ← mem]
  rfl

theorem exec_readbackFailure (released : s.resetHeld = false) (sending : s.sending = some r) :
    exec .readbackFailure s = .next (s.setFilter { s.filter with receive := some { r with readback := true } }) := by
  show execReadbackFailure s = _
  rw [execReadbackFailure, act_released released, sending]

/-! ## What follows the return -/

/-- What the requester's work at the end of the event, its notices and what follows by itself come to. -/
structure Rests (s t : State) : Prop where
  abides : Abides s t
  membership : s.sel.offersPresence = false → t.sel.membership = s.sel.membership
  responder : t.sel.responder = s.sel.responder
  sweep : ∀ x, s.sel.sweep = some x →
    t.sel.sweep = if s.inGroup = true ∧ 6 ≤ s.swp.balance ∧ s.swp.balance ≤ 7 then some x else none
  queue : t.out.entries.map OutEntry.atRest = s.out.entries.map OutEntry.atRest
  presence : ∀ x, s.inGroup = true → s.sel.membership = some x → s.sel.offersPresence = true → ∀ kept,
    s.sel.presenceKept = some kept → t.sel.membership = some (if kept = t.presenceBody then x else t.presenceBody)

theorem presenceBody_congr (dir : t.dir = s.dir) (st : t.mem.st = s.mem.st) : t.presenceBody = s.presenceBody := by
  unfold State.presenceBody State.windowLow
  rw [dir, st]

/-- R107: an offered PRESENCE that has lost arbitration is made anew when its values have changed (notes/assumptions/54.md). -/
theorem settlePresence_kept {x kept : FrameBody} (group : s.inGroup = true) (offered : s.sel.membership = some x)
    (presence : s.sel.offersPresence = true) (h : s.sel.presenceKept = some kept) :
    s.settlePresence.sel.membership = some (if kept = s.presenceBody then x else s.presenceBody) := by
  unfold State.settlePresence
  rw [group, presence, h]
  simp only [Bool.and_self, if_true, Option.some.injEq]
  split
  · exact offered
  · unfold State.reoffer
    split
    · next same => exact same
    · rfl

theorem rests (b : Batch) : Rests b.st b.recheck.followGaps.flush.settle := by
  have pursued := Abides.pursued.followGaps (Abides.pursued.recheck (.refl b.st))
  have offers := keepsOffers_pursued.followGaps (keepsOffers_pursued.recheck (keepsOffers_pursued.refl b.st))
  have seeks := ((Pursues.refl b).recheck.followGaps).seeks.same
  have abides := pursued.trans (settle_flush_abides _)
  obtain ⟨sel, out⟩ := flush_sel b.recheck.followGaps
  obtain ⟨flushed, mem, _, dir, _⟩ := beside_iff.1 (flush_beside b.recheck.followGaps)
  have swp : b.recheck.followGaps.flush.swp = b.recheck.followGaps.st.swp := by rw [Batch.flush, postAll_eq]; rfl
  generalize b.recheck.followGaps = w at *
  have membership : w.flush.sel.membership = b.st.sel.membership := by rw [sel, offers]
  have kept : w.flush.sel.presenceKept = b.st.sel.presenceKept := by rw [sel, offers]
  have group : w.flush.inGroup = b.st.inGroup := (Abides.inGroup_congr (by rw [mem])).trans pursued.group
  have balance : w.flush.swp.balance = b.st.swp.balance := by rw [swp, seeks]
  have follows := Follows.settle w.flush
  refine ⟨abides, fun plain => ?_, ?_, fun x offered => ?_, ?_, fun x within offered presence y standing => ?_⟩
  · rw [follows.memberOffer (by rwa [Selector.offersPresence, membership]), membership]
  · rw [follows.responseOffer, sel, offers]
  · rw [settle_quiet_offered (b := x) (by rw [sel, offers, offered]), State.quietDue, group, balance]
    simp only [Bool.and_eq_true, decide_eq_true_eq, and_assoc]
  · rw [follows.queue, out, seeks]
  · have body : w.flush.settle.presenceBody = w.flush.presenceBody :=
      presenceBody_congr (by rw [follows.same]) (by rw [follows.same])
    rw [settle_membership, body]
    exact settlePresence_kept (group.trans within) (membership.trans offered) (by rwa [Selector.offersPresence, membership])
      (kept.trans standing)

/-! ## A FETCH that returns (R125) -/

theorem recheck_outside (outside : b.st.inGroup = false) : b.recheck = b := by
  unfold Batch.recheck
  split
  · rfl
  · simp [outside]

theorem gapReport_sel : b.gapReport.st.sel = b.st.sel ∧ b.gapReport.st.cat = b.st.cat := by
  unfold Batch.gapReport
  repeat' split
  all_goals exact ⟨rfl, rfl⟩

/-- R121: no context is formed outside the group, or while one stands. -/
theorem followGaps_sel (h : b.st.inGroup = false ∨ b.st.cat.requester ≠ none) : b.followGaps.st.sel = b.st.sel := by
  obtain ⟨sel, cat⟩ := gapReport_sel (b := b)
  have stays : ¬ (b.gapReport.st.mem.st = .syncing ∧ b.gapReport.st.cat.requester = none) := fun ⟨syncing, absent⟩ => by
    rcases h with outside | standing
    · have group : b.gapReport.st.inGroup = false := (Abides.pursued.gapReport (.refl b.st)).group.trans outside
      exact (inGroup_false.1 group).1 syncing
    · exact standing (cat ▸ absent)
  rw [Batch.followGaps, Batch.formContexts, if_neg stays]
  exact sel

theorem offerFetch_requester : (s.offerFetch c k).sel.requester = some (.fetch k c.first c.count) ∧
    (s.offerFetch c k).cat.requester ≠ none := by
  unfold State.offerFetch State.reoffer
  split
  · next same => exact ⟨same, Option.some_ne_none _⟩
  · exact ⟨rfl, Option.some_ne_none _⟩

/-- R125: with no FETCH in flight the offer names the run as it stands, while its responder is a candidate. -/
theorem recheck_offered (group : b.st.inGroup = true) (grounded : b.st.sel.inFlight = none) (context : b.st.cat.requester = some c)
    (phase : c.phase = .offered k) (outstanding : c.outstanding b.st.dir ≠ [])
    (candidate : k ∈ b.st.candidates (c.cut b.st.dir).last) :
    b.recheck = b.on fun s => s.offerFetch (c.cut b.st.dir) k := by
  unfold Batch.recheck
  rw [context]
  simp [group, outstanding, phase, Selector.flies, grounded, candidate]

theorem requester_of_outside (outside : b.st.inGroup = false) :
    b.recheck.followGaps.flush.settle.sel.requester = b.st.sel.requester := by
  rw [(Follows.settle _).fetchOffer, (flush_sel _).1, recheck_outside outside, followGaps_sel (.inl outside)]

theorem requester_of_offered (group : b.st.inGroup = true) (grounded : b.st.sel.inFlight = none)
    (context : b.st.cat.requester = some c) (phase : c.phase = .offered k) (outstanding : c.outstanding b.st.dir ≠ [])
    (candidate : k ∈ b.st.candidates (c.cut b.st.dir).last) : b.recheck.followGaps.flush.settle.sel.requester =
      some (.fetch k (c.cut b.st.dir).first (c.cut b.st.dir).count) := by
  obtain ⟨offered, standing⟩ := offerFetch_requester (s := b.st) (c := c.cut b.st.dir) (k := k)
  rw [(Follows.settle _).fetchOffer, (flush_sel _).1, recheck_offered group grounded context phase outstanding candidate,
    followGaps_sel (.inr standing)]
  exact offered

/-! ## A LEAVE whose timer has expired (R117) -/

theorem leaveLost_waiting (h : ∀ l, b.st.mem.leave = some l → l.expired = false) : b.leaveLost = b := by
  unfold Batch.leaveLost
  split
  · next l leave => rw [h l leave]; rfl
  · rfl

theorem leaveLost_expired {l : LeaveRecord} (leave : b.st.mem.leave = some l) (expired : l.expired = true) :
    b.leaveLost = b.endGroupPart := by
  unfold Batch.leaveLost
  rw [leave]
  simp [expired]

theorem endGroupPart_leaves (b : Batch) : ∃ l, LeavesGroup (b.st.setMem { b.st.mem with leave := l }) b.endGroupPart.st := by
  rw [endGroupPart_eq]
  exact ⟨_, leavesGroup (b.on fun s =>
    s.setMem { s.mem with leave := s.mem.leave.map fun l => { l with timer := none, expired := false } })⟩

/-- A lost LEAVE leaves the line, the window and the frontier as they are. -/
theorem leaveLost_keeps (b : Batch) : onLine b.leaveLost.st = onLine b.st ∧ b.leaveLost.st.dir.window = b.st.dir.window ∧
    b.leaveLost.st.dir.frontier = b.st.dir.frontier := by
  have left : onLine b.endGroupPart.st = onLine b.st ∧ b.endGroupPart.st.dir.window = b.st.dir.window ∧
      b.endGroupPart.st.dir.frontier = b.st.dir.frontier := by
    obtain ⟨l, leaves⟩ := endGroupPart_leaves b
    rw [leaves.dir]
    exact ⟨leaves.line, foldl_keeps _ Directory.window (fun _ _ => rollBack_window _ _) _ _,
      foldl_keeps _ Directory.frontier (fun _ _ => rollBack_frontier _ _) _ _⟩
  unfold Batch.leaveLost
  split
  · split
    · exact left
    · exact ⟨rfl, rfl, rfl⟩
  · exact ⟨rfl, rfl, rfl⟩

/-! ## The statement -/

theorem presenceNow_eq (s : State) : presenceNow s = s.presenceBody := by
  unfold presenceNow State.presenceBody Directory.storedCheck
  cases s.dir.held (s.dir.frontier - 1) with
  | none => rfl
  | some x => cases x <;> rfl

/-- Settles O24: the frame's return by `lostFrame_eq`, what follows by `rests`, the FETCH's run by `requester_of_offered`. -/
theorem lostArbitrationReturnsTheFrame : Obligations.LostArbitrationReturnsTheFrame := by
  intro s r released rx receive own sound
  have sending : s.sending = some r := by simp [State.sending, receive, rx, own, sound]
  refine ⟨exec_readbackFailure released sending, fun f flying wanted => ?_⟩
  have exec_eq := exec_arbitrationLost released sending flying
  have fixed := keepsFixed_of_works arbitrationLost_works exec_eq
  have now : (lostFrame s r f).batch.leaveLost.recheck.followGaps.flush.settle.now = s.now := now_of_internal
    (.settle (.flush (.followGaps (.recheck (.leaveLost (b := State.batch _) (.setMem (.setFilter (.returnOffer (.refl s)))))))))
  have same := lostFrame_eq s r f
  have grounded : (lostFrame s r f).sel.inFlight = none := by rw [same]; exact returnOffer_inFlight
  obtain ⟨line, window, frontier⟩ := leaveLost_keeps (lostFrame s r f).batch
  have rested := rests (lostFrame s r f).batch.leaveLost
  have lineEq : onLine (lostFrame s r f) = (s.bus, { s.filter with receive := some { r with own := false } }, false) := by
    rw [onLine, grounded, same]; rfl
  have lineNow := rested.abides.line.trans (line.trans lineEq)
  simp only [onLine, Prod.mk.injEq, Option.isSome_eq_false_iff, Option.isNone_iff_eq_none] at lineNow
  obtain ⟨bus, filter, landed⟩ := lineNow
  refine ⟨_, exec_eq, landed, filter, bus, fun waiting => ?_, fun l leave expired => ?_, fixed, now,
    rested.abides.window.trans (window.trans (by rw [same]; rfl)), rested.abides.frontier.trans (frontier.trans (by rw [same]; rfl))⟩
  · rw [leaveLost_waiting (b := (lostFrame s r f).batch) (by rw [State.batch, same]; exact waiting)] at rested ⊢
    have outside := requester_of_outside (b := (lostFrame s r f).batch)
    have offered := @requester_of_offered (lostFrame s r f).batch
    generalize (lostFrame s r f).batch.recheck.followGaps.flush.settle = t at *
    rw [State.batch, same] at rested outside offered
    have sel := returnOffer_offer (s := s) wanted
    refine ⟨fun h rest sender entries => ?_, fun sender => ?_, fun sender => ?_, fun sender apart => ?_,
      fun c k sender group context phase outstanding candidate => ?_, fun sender plain => ?_, fun a b c d sender body group => ?_⟩
    · rw [rested.queue, returnOffer_record wanted sender entries]
    · rw [sender] at sel
      exact rested.sweep f.body (by rw [sel (by decide)]; rfl)
    · rw [sender] at sel
      rw [rested.responder, sel (by decide)]
      rfl
    · rw [sender] at sel
      rw [outside apart, sel (by decide)]
      rfl
    · exact offered group grounded context phase outstanding candidate
    · rw [sender] at sel
      have returned : (s.returnOffer f).sel.membership = some f.body := by rw [sel (by decide)]; rfl
      have other : (s.returnOffer f).sel.offersPresence = false := by
        unfold Selector.offersPresence
        split
        · next offered => exact absurd (Option.some.inj (returned.symm.trans offered)) (plain _ _ _ _)
        · rfl
      exact (rested.membership other).trans returned
    · rw [sender] at sel
      have returned : (s.returnOffer f).sel.membership = some f.body := by rw [sel (by decide)]; rfl
      have presence : (s.returnOffer f).sel.offersPresence = true := by simp [Selector.offersPresence, returned, body]
      rw [presenceNow_eq, presenceNow_eq, rested.presence f.body group returned presence s.presenceBody (by rw [sel (by decide)])]
      exact congrArg some (if_congr eq_comm rfl rfl)
  · rw [leaveLost_expired (b := (lostFrame s r f).batch) (by rw [State.batch, same]; exact leave) expired] at rested ⊢
    obtain ⟨_, leaves⟩ := endGroupPart_leaves (lostFrame s r f).batch
    exact ⟨(rested.membership (by simp [Selector.offersPresence, leaves.offer])).trans leaves.offer, by
      rw [rested.abides.conf, leaves.conf]⟩

end Sys2Proof.Proofs
end

section
/-! A frame as levels of the data line (R27, R33, R34): what a receiver has after each level, within a byte, between two bytes and
on a line that falls silent, and the frame end that it comes to. -/

namespace Sys2Proof.Proofs

open Sys2Proof Sys2Proof.Machine

/-! ## One byte -/

theorem bitsOf_singleton (x : Byte) : bitsOf [x] = [x.getMsbD 0, x.getMsbD 1, x.getMsbD 2, x.getMsbD 3, x.getMsbD 4,
    x.getMsbD 5, x.getMsbD 6, x.getMsbD 7] := rfl

theorem ofBoolListBE_getMsbD (x : Byte) : BitVec.ofBoolListBE [x.getMsbD 0, x.getMsbD 1, x.getMsbD 2, x.getMsbD 3, x.getMsbD 4,
    x.getMsbD 5, x.getMsbD 6, x.getMsbD 7] = x := by
  refine BitVec.eq_of_getMsbD_eq fun i (below : i < 8) => ?_
  rw [BitVec.getMsbD_ofBoolListBE]
  interval_cases i <;> rfl

theorem mem_framingErrorsFrom (levels : List FramingLevels) (n i : Nat) :
    i ∈ framingErrorsFrom n levels ↔ n ≤ i ∧ ∃ f, levels[i - n]? = some f ∧ (f.start = true ∨ f.stop = false) := by
  induction levels generalizing n with
  | nil => simp [framingErrorsFrom]
  | cons f rest ih =>
    have listed : i ∈ framingErrorsFrom n (f :: rest) ↔
        (f.isError = true ∧ i = n) ∨ i ∈ framingErrorsFrom (n + 1) rest := by
      rw [framingErrorsFrom]
      split <;> simp_all
    have error : f.isError = true ↔ f.start = true ∨ f.stop = false := by simp [FramingLevels.isError]
    rw [listed, ih, error]
    rcases lt_trichotomy i n with below | rfl | above
    · simp [below.ne, below.not_ge, (below.trans (Nat.lt_succ_self n)).not_ge]
    · simp
    · have next : i - n = (i - (n + 1)) + 1 := by omega
      simp [above.ne', above.le, Nat.succ_le_of_lt above, next]

/-! ## One level -/

variable {r : Reception} {done sent : List Byte} {part : List Bool} {level : Bool}

theorem follow_cons (r : Reception) (level : Bool) (rest : List Bool) :
    r.follow (level :: rest) = (r.sample level).ended.or ((r.sample level).follow rest) := by
  rw [Reception.follow]
  cases (r.sample level).ended <;> rfl

theorem follow_cons_of_open (goesOn : (r.sample level).ended = none) (rest : List Bool) :
    r.follow (level :: rest) = (r.sample level).follow rest := by
  rw [follow_cons, goesOn, Option.none_or]

theorem take_short (short : r.part.length < 9) : r.take level = { r with part := r.part ++ [level] } := by
  unfold Reception.take
  split
  · next full => simp [full] at short
  · rfl

/-- R27: the tenth level completes a byte. -/
theorem take_full {start : Bool} {x : Byte} (full : r.part = start :: bitsOf [x]) :
    r.take level =
      { r with bytes := r.bytes ++ [x], framing := r.framing ++ [{ start := start, stop := level }], part := [] } := by
  rw [bitsOf_singleton] at full
  simp only [Reception.take, full, ofBoolListBE_getMsbD]

theorem sample_recessive (r : Reception) : r.sample true = { r.take true with run := (r.take true).run + 1 } := rfl

theorem sample_dominant (r : Reception) :
    r.sample false = { r.take false with run := 0, before := (r.take false).bytes.length } := rfl

theorem ended_whole (between : r.part = []) (whole : isWhole r.bytes = true) : r.ended = some (.frameEnd r.bytes r.framing) := by
  simp [Reception.ended, between, whole]

theorem ended_silent (unfinished : r.part ≠ [] ∨ isWhole r.bytes = false) (silent : 12 ≤ r.run) :
    r.ended = some (.frameTruncated (r.bytes.take r.before) (r.framing.take r.before)) := by
  rcases unfinished with within | short <;> simp [Reception.ended, *]

theorem ended_none (unfinished : r.part ≠ [] ∨ isWhole r.bytes = false) (quiet : r.run < 12) : r.ended = none := by
  rcases unfinished with within | short <;> simp [Reception.ended, *]

/-! ## Within a byte -/

/-- The framing of bytes received as they were sent (R27). -/
def soundFramings (bytes : List Byte) : List FramingLevels := List.replicate bytes.length soundFraming

theorem soundFramings_concat (bytes : List Byte) (x : Byte) :
    soundFramings (bytes ++ [x]) = soundFramings bytes ++ [soundFraming] := by
  simp [soundFramings, List.replicate_succ']

/-- The receiver is between two bytes of a frame, all of them read well. -/
structure Received (r : Reception) (done : List Byte) : Prop where
  bytes : r.bytes = done
  framing : r.framing = soundFramings done
  part : r.part = []

/-- The receiver is within a byte that began with a dominant start bit, behind bytes that were all read well. -/
structure ReceivesPart (r : Reception) (done : List Byte) (bits : List Bool) : Prop where
  bytes : r.bytes = done
  framing : r.framing = soundFramings done
  part : r.part = bits
  run : r.run < bits.length
  before : r.before = done.length

theorem Received.start (h : Received r done) : ReceivesPart (r.sample false) done [false] := by
  have taken : r.take false = { r with part := [false] } := by rw [take_short (by simp [h.part]), h.part]; rfl
  rw [sample_dominant, taken]
  exact ⟨h.bytes, h.framing, rfl, Nat.one_pos, congrArg List.length h.bytes⟩

theorem ReceivesPart.sample (h : ReceivesPart r done part) (short : part.length < 9) (level : Bool) :
    ReceivesPart (r.sample level) done (part ++ [level]) := by
  have taken : r.take level = { r with part := part ++ [level] } := by rw [take_short (by rwa [h.part]), h.part]
  have longer : (part ++ [level]).length = part.length + 1 := by simp
  have run := h.run
  cases level with
  | false =>
    rw [sample_dominant, taken]
    exact ⟨h.bytes, h.framing, rfl, longer ▸ Nat.succ_pos _, congrArg List.length h.bytes⟩
  | true =>
    rw [sample_recessive, taken]
    exact ⟨h.bytes, h.framing, rfl, longer ▸ Nat.succ_lt_succ run, h.before⟩

/-- R27: the stop bit completes the byte; the line has not been recessive for 12 bt. -/
theorem ReceivesPart.stop {x : Byte} (h : ReceivesPart r done (false :: bitsOf [x])) :
    Received (r.sample true) (done ++ [x]) ∧ (r.sample true).run < 12 := by
  have run : r.run < 9 := h.run
  rw [sample_recessive, take_full h.part]
  refine ⟨⟨congrArg (· ++ [x]) h.bytes, ?_, rfl⟩, Nat.succ_lt_succ (run.trans (by decide))⟩
  rw [soundFramings_concat, ← h.framing]
  rfl

theorem ReceivesPart.ended (h : ReceivesPart r done part) (short : part.length ≤ 9) : r.ended = none := by
  have run := h.run
  exact ended_none (.inl fun empty => by simp [← h.part, empty] at run) (by omega)

/-- No frame end is reached within a byte. -/
theorem ReceivesPart.follow (h : ReceivesPart r done part) (levels : List Bool) (short : part.length + levels.length ≤ 9) :
    ∃ r', ReceivesPart r' done (part ++ levels) ∧ ∀ rest, r.follow (levels ++ rest) = r'.follow rest := by
  induction levels generalizing r part with
  | nil => exact ⟨r, by rwa [List.append_nil], fun rest => rfl⟩
  | cons level levels ih =>
    rw [List.length_cons] at short
    have next := h.sample (by omega) level
    have longer : (part ++ [level]).length = part.length + 1 := by simp
    obtain ⟨r', there, goes⟩ := ih next (by omega)
    refine ⟨r', by rwa [List.append_assoc] at there, fun rest => ?_⟩
    rw [List.cons_append, follow_cons_of_open (next.ended (by omega)), goes]

/-- The first levels of a byte, its start bit among them. -/
theorem Received.follow_part (h : Received r done) (bits : List Bool) (short : bits.length ≤ 8) :
    ∃ r', ReceivesPart r' done (false :: bits) ∧ ∀ rest, r.follow (false :: bits ++ rest) = r'.follow rest := by
  obtain ⟨r', there, goes⟩ := h.start.follow bits (by rw [List.length_singleton]; omega)
  refine ⟨r', there, fun rest => ?_⟩
  rw [List.cons_append, follow_cons_of_open (h.start.ended (by decide)), goes]

/-! ## Whole bytes -/

/-- R27: a byte's ten levels are that byte. -/
theorem Received.follow_byte (h : Received r done) (x : Byte) :
    ∃ r', Received r' (done ++ [x]) ∧ r'.run < 12 ∧
      ∀ rest, r.follow (byteLevels x soundFraming ++ rest) = r'.ended.or (r'.follow rest) := by
  obtain ⟨r', there, goes⟩ := h.follow_part (bitsOf [x]) le_rfl
  obtain ⟨complete, quiet⟩ := there.stop
  refine ⟨r'.sample true, complete, quiet, fun rest => ?_⟩
  have levels : byteLevels x soundFraming ++ rest = false :: bitsOf [x] ++ (true :: rest) := by
    simp [byteLevels, soundFraming]
  rw [levels, goes, follow_cons]

/-- R33: while a frame's bytes are received, none before the last completes it. -/
theorem Received.follow_bytes (h : Received r done) (bytes : List Byte)
    (short : ∀ l, l <+: done ++ bytes → isWhole l = false) :
    ∃ r', Received r' (done ++ bytes) ∧
      ∀ rest, r.follow (bytes.flatMap (byteLevels · soundFraming) ++ rest) = r'.follow rest := by
  induction bytes generalizing r done with
  | nil => exact ⟨r, by rwa [List.append_nil], fun rest => rfl⟩
  | cons x bytes ih =>
    have split : done ++ x :: bytes = (done ++ [x]) ++ bytes := by simp
    rw [split] at short ⊢
    obtain ⟨r₁, complete, quiet, byte⟩ := h.follow_byte x
    obtain ⟨r', there, goes⟩ := ih complete short
    refine ⟨r', there, fun rest => ?_⟩
    have goesOn : r₁.ended = none := ended_none (.inr (complete.bytes ▸ short _ (List.prefix_append _ _))) quiet
    rw [List.flatMap_cons, List.append_assoc, byte, goesOn, Option.none_or, goes]

/-! ## A line that falls silent -/

/-- The line is recessive since some level of a byte behind `done`. -/
structure FallsSilent (r : Reception) (done : List Byte) : Prop where
  bytes : done <+: r.bytes
  framing : soundFramings done <+: r.framing
  before : r.before = done.length
  part : r.part.length ≤ 9
  levels : 10 * r.bytes.length + r.part.length ≤ 10 * done.length + 9 + r.run

theorem ReceivesPart.fallsSilent (h : ReceivesPart r done part) (short : part.length ≤ 9) : FallsSilent r done where
  bytes := by rw [h.bytes]
  framing := by rw [h.framing]
  before := h.before
  part := by rwa [h.part]
  levels := by rw [h.bytes, h.part]; omega

theorem length_eq_nine {α : Type} {l : List α} (h : l.length = 9) :
    ∃ a b c d e f g i j, l = [a, b, c, d, e, f, g, i, j] := by
  match l, h with
  | [a, b, c, d, e, f, g, i, j], _ => exact ⟨a, b, c, d, e, f, g, i, j, rfl⟩

/-- One level more is one level more of the bytes and of the part. -/
theorem take_adds (r : Reception) (short : r.part.length ≤ 9) (level : Bool) :
    r.bytes <+: (r.take level).bytes ∧ r.framing <+: (r.take level).framing ∧ (r.take level).part.length ≤ 9 ∧
      10 * (r.take level).bytes.length + (r.take level).part.length = 10 * r.bytes.length + r.part.length + 1 ∧
      (r.take level).run = r.run ∧ (r.take level).before = r.before := by
  unfold Reception.take
  split
  · next full => simp [full]; omega
  · next unfinished =>
    refine ⟨List.prefix_rfl, List.prefix_rfl, ?_, by simp; omega, rfl, rfl⟩
    by_contra longer
    rw [List.length_append, List.length_singleton] at longer
    obtain ⟨start, b7, b6, b5, b4, b3, b2, b1, b0, full⟩ := length_eq_nine (show r.part.length = 9 by omega)
    exact unfinished _ _ _ _ _ _ _ _ _ full

theorem FallsSilent.sample (h : FallsSilent r done) : FallsSilent (r.sample true) done ∧ (r.sample true).run = r.run + 1 := by
  obtain ⟨bytes, framing, part, levels, run, before⟩ := take_adds r h.part true
  have := h.levels
  rw [sample_recessive]
  exact ⟨⟨h.bytes.trans bytes, h.framing.trans framing, before.trans h.before, part, by dsimp only; omega⟩,
    congrArg (· + 1) run⟩

/-- R34: 12 bt of recessive line truncate the frame, with the bytes that were complete before, where none of the bytes read out of
the recessive line completes it. -/
theorem FallsSilent.follow (h : FallsSilent r done)
    (unfinished : ∀ l, done <+: l → l.length ≤ done.length + 2 → isWhole l = false)
    (m : Nat) (quiet : r.run < 12) (long : 12 ≤ r.run + m) :
    r.follow (List.replicate m true) = some (.frameTruncated done (soundFramings done)) := by
  induction m generalizing r with
  | zero => omega
  | succ m ih =>
    obtain ⟨next, run⟩ := h.sample
    have levels := next.levels
    have short : isWhole (r.sample true).bytes = false := unfinished _ next.bytes (by omega)
    rw [List.replicate_succ, follow_cons]
    by_cases silent : 12 ≤ (r.sample true).run
    · have bytes := List.prefix_iff_eq_take.1 next.bytes
      have framing := List.prefix_iff_eq_take.1 next.framing
      rw [soundFramings, List.length_replicate] at framing
      rw [ended_silent (.inr short) silent, next.before, ← bytes, ← framing]
      rfl
    · rw [ended_none (.inr short) (by omega), Option.none_or]
      exact ih next (by omega) (by omega)

/-! ## Whole frames and frames broken off -/

theorem getElem?_of_prefix {l : List Byte} {i : Nat} (first : l <+: sent) (inside : i < l.length) : l[i]? = sent[i]? := by
  obtain ⟨rest, rfl⟩ := first
  exact (List.getElem?_append_left inside).symm

theorem isWhole_iff (bytes : List Byte) : isWhole bytes = true ↔ ∃ l, bytes[2]? = some l ∧ bytes.length = 5 + l.toNat := by
  unfold isWhole
  cases bytes[2]? <;> simp

/-- R33: the length byte alone sets how long a frame is. -/
theorem isWhole_of_shorter {l : List Byte} (whole : isWhole sent = true) (shorter : l.length < sent.length)
    (lengthByte : 5 ≤ l.length → l[2]? = sent[2]?) : isWhole l = false := by
  obtain ⟨n, third, length⟩ := (isWhole_iff sent).1 whole
  by_contra complete
  obtain ⟨n', third', length'⟩ := (isWhole_iff l).1 (by simpa using complete)
  have same : some n' = some n := third'.symm.trans ((lengthByte (by omega)).trans third)
  cases same
  omega

/-- R33: a frame's first bytes, one at least left out, are no whole frame. -/
theorem isWhole_of_prefix {l : List Byte} (whole : isWhole sent = true) (first : l <+: sent) (shorter : l.length < sent.length) :
    isWhole l = false :=
  isWhole_of_shorter whole shorter fun long => getElem?_of_prefix first (by omega)

/-- The receiver at the frame-start bit. -/
theorem received_nil : Received { bytes := [], framing := [], part := [], run := 0, before := 0 } [] := ⟨rfl, rfl, rfl⟩

/-- R27, R33: the levels of a frame's bytes are these bytes, with no framing error, at the end that the length byte sets. -/
theorem frameFromLevels_sent (whole : isWhole sent = true) :
    frameFromLevels (sent.flatMap (byteLevels · soundFraming)) = some (.frameEnd sent (soundFramings sent)) := by
  rcases List.eq_nil_or_concat sent with rfl | ⟨init, x, rfl⟩
  · cases whole
  rw [List.concat_eq_append] at whole ⊢
  have short : ∀ l, l <+: init → isWhole l = false := fun l first =>
    isWhole_of_prefix whole (first.trans (List.prefix_append _ _)) (by simpa using Nat.lt_succ_of_le first.length_le)
  obtain ⟨r, behind, bytes⟩ := received_nil.follow_bytes init short
  obtain ⟨r', complete, quiet, byte⟩ := behind.follow_byte x
  have finish := ended_whole complete.part (complete.bytes ▸ whole)
  have last := byte []
  rw [List.append_nil] at last
  rw [frameFromLevels, List.flatMap_append, List.flatMap_singleton, bytes, last, finish, complete.bytes, complete.framing]
  rfl

/-- R34: within a byte behind `n` whole ones, with at least two bytes to come after it, 12 bt of recessive line truncate the frame
and hand over the `n` bytes: in that time at most one byte more is read out of the recessive line, and it does not complete the
frame (notes/assumptions/40.md). -/
theorem frameFromLevels_brokenOff (whole : isWhole sent = true) {n j : Nat} (x : Byte) (inside : n + 2 < sent.length)
    (started : 1 ≤ j) (unfinished : j ≤ 9) :
    frameFromLevels ((sent.take n).flatMap (byteLevels · soundFraming) ++ (byteLevels x soundFraming).take j ++
      List.replicate 12 true) = some (.frameTruncated (sent.take n) (soundFramings (sent.take n))) := by
  obtain ⟨i, rfl⟩ := Nat.exists_eq_add_of_le' started
  have length : (sent.take n).length = n := by rw [List.length_take]; omega
  have levels : (byteLevels x soundFraming).take (i + 1) = false :: (bitsOf [x]).take i := by
    rw [byteLevels, List.take_succ_cons, List.take_append_of_le_length (by rw [bitsOf_singleton]; simp; omega)]
    rfl
  have short : ((bitsOf [x]).take i).length ≤ 8 := (List.length_take_le _ _).trans (by omega)
  obtain ⟨r, behind, bytes⟩ := received_nil.follow_bytes (sent.take n) fun l first =>
    isWhole_of_prefix whole (first.trans (List.take_prefix n sent)) (by have := first.length_le; simp at this; omega)
  obtain ⟨r', within, part⟩ := behind.follow_part _ short
  have run := within.run
  rw [List.length_cons] at run
  rw [frameFromLevels, levels, List.append_assoc, bytes, part]
  refine (within.fallsSilent (Nat.succ_le_succ short)).follow (fun l first few => ?_) 12 (by omega) (by omega)
  simp only [List.nil_append] at first few
  refine isWhole_of_shorter whole (by omega) fun long => ?_
  calc l[2]? = (sent.take n)[2]? := (getElem?_of_prefix first (by omega)).symm
    _ = sent[2]? := getElem?_of_prefix (List.take_prefix n sent) (by omega)

end Sys2Proof.Proofs
end

section
/-! A frame as it was sent (R45 to R54, R182, R183): the fields of its body are read back, and the filter finds it sound. -/

namespace Sys2Proof.Proofs

open Sys2Proof Sys2Proof.Machine

/-! ## Fields -/

variable {l : List Byte} {w off v n : Nat}

@[simp] theorem length_natBytes (w n : Nat) : (natBytes w n).length = w := by
  induction w with
  | zero => rfl
  | succ w ih => rw [natBytes, List.length_cons, ih]

/-- A number is read back of its field; what does not fit the field is dropped (R183). -/
theorem beNat_natBytes (w n : Nat) : beNat (natBytes w n) = n % 256 ^ w := by
  induction w with
  | zero => simp [natBytes, beNat, Nat.mod_one]
  | succ w ih =>
    rw [natBytes, beNat_cons, length_natBytes, ih, BitVec.toNat_ofNat, pow_succ 256, Nat.mod_mul, Nat.add_comm, Nat.mul_comm]

@[simp] theorem field_natBytes_append (w n : Nat) (l : List Byte) : field (natBytes w n ++ l) 0 w = n % 256 ^ w := by
  rw [field, List.drop_zero, List.take_left' (length_natBytes w n), beNat_natBytes]

@[simp] theorem field_natBytes (w n : Nat) : field (natBytes w n) 0 w = n % 256 ^ w := by
  rw [← field_natBytes_append w n [], List.append_nil]

@[simp] theorem field_behind_natBytes (behind : w ≤ off) : field (natBytes w n ++ l) off v = field l (off - w) v := by
  simp [field, List.drop_append, List.drop_eq_nil_of_le, behind]

@[simp] theorem field_behind_byte (b : Byte) (l : List Byte) (off : Nat) (behind : 1 ≤ off) :
    field (b :: l) off v = field l (off - 1) v := by
  obtain ⟨off, rfl⟩ := Nat.exists_eq_add_of_le' behind
  rfl

theorem station_field (p : Station) (l : List Byte) : station? (field (stationByte p :: l) 0 1) = some p := by
  have byte : field (stationByte p :: l) 0 1 = p.val := by
    have := p.isLt
    simp [field, beNat, stationByte]
    omega
  simp [byte, station?]

theorem leaveReason_code (r : LeaveReason) : leaveReason? r.code = some r := by cases r <;> rfl

/-- R47: a frontier of 2^48 is sent as 0. -/
theorem decodeFrontier_sent {f : Nat} (positive : 1 ≤ f) (limit : f ≤ 281474976710656) :
    decodeFrontier (f % 281474976710656) = f := by
  rcases limit.eq_or_lt with rfl | below
  · rfl
  · rw [Nat.mod_eq_of_lt below, decodeFrontier, if_neg (by omega)]

@[simp] theorem check_sent (c : Check) : BitVec.ofNat 16 (beNat (natBytes 2 c.toNat)) = c := by
  rw [beNat_natBytes, Nat.mod_eq_of_lt (show c.toNat < 256 ^ 2 from c.isLt), BitVec.ofNat_toNat, BitVec.setWidth_eq]

/-! ## Bodies -/

variable {b : FrameBody}

theorem gsnInRange_iff {g : Nat} : gsnInRange g = true ↔ 1 ≤ g ∧ g < 281474976710656 := by
  simp [gsnInRange]

theorem runInRange_iff {g n : Nat} : runInRange g n = true ↔
    (1 ≤ g ∧ g < 281474976710656) ∧ 1 ≤ n ∧ n ≤ 16 ∧ g + n ≤ 281474976710656 := by
  simp [runInRange, gsnInRange, and_assoc]

theorem recordInRange_iff {t : Nat} {payload : List Byte} : recordInRange t payload = true ↔
    1 ≤ t ∧ t ≤ 65535 ∧ 1 ≤ payload.length ∧ payload.length ≤ 240 := by
  simp [recordInRange, and_assoc]

/-- R54: a body with its fields in range has a length of its kind. -/
theorem bodyLengthFits_bytes (range : b.inRange = true) : bodyLengthFits b.kind b.bytes.length = true := by
  cases b with
  | replay _ g _ t payload | record g t payload =>
    obtain ⟨-, record⟩ := Bool.and_eq_true_iff.1 range
    obtain ⟨-, -, nonempty, short⟩ := recordInRange_iff.1 record
    simp [FrameBody.kind, FrameBody.bytes, bodyLengthFits]
    omega
  | _ => simp [FrameBody.kind, FrameBody.bytes, bodyLengthFits]

theorem length_of_fits {kind len : Nat} (fits : bodyLengthFits kind len = true) : len ≤ 250 := by
  unfold bodyLengthFits at fits
  split at fits <;> simp at fits <;> omega

/-- R183: every field is read of the place that it is sent at. -/
theorem bodyFields_sent (range : b.inRange = true) : bodyFields b.kind b.bytes = some b := by
  cases b with
  | quiet d =>
    obtain ⟨-, limit⟩ : 1 ≤ d ∧ d ≤ 1000 := by simpa [FrameBody.inRange] using range
    have fits : d < 65536 := by omega
    simp [FrameBody.kind, FrameBody.bytes, bodyFields, Nat.mod_eq_of_lt, *]
  | found f =>
    obtain ⟨positive, limit⟩ : 1 ≤ f ∧ f ≤ 281474976710656 := by simpa [FrameBody.inRange] using range
    simp [FrameBody.kind, FrameBody.bytes, bodyFields, decodeFrontier_sent, *]
  | leave r =>
    have fits : r.code < 256 := by cases r <;> decide
    simp [FrameBody.kind, FrameBody.bytes, bodyFields, leaveReason_code, Nat.mod_eq_of_lt, *]
  | fetch p g n | gone p g n =>
    obtain ⟨⟨-, gsn⟩, -, count, -⟩ := runInRange_iff.1 range
    have fits : n < 256 := by omega
    simp [FrameBody.kind, FrameBody.bytes, bodyFields, station_field, Nat.mod_eq_of_lt, *]
  | replay p g o t payload | record g t payload =>
    obtain ⟨gsn, record⟩ := Bool.and_eq_true_iff.1 range
    obtain ⟨-, gsn⟩ := gsnInRange_iff.1 gsn
    obtain ⟨-, tag, -⟩ := recordInRange_iff.1 record
    have fits : t < 65536 := by omega
    simp [FrameBody.kind, FrameBody.bytes, bodyFields, station_field, List.drop_append, Nat.mod_eq_of_lt, *]
  | join h =>
    have limit : h < 281474976710656 := by simpa [FrameBody.inRange] using range
    simp [FrameBody.kind, FrameBody.bytes, bodyFields, Nat.mod_eq_of_lt, *]
  | presence f l c m =>
    obtain ⟨⟨positive, limit⟩, low⟩ : (1 ≤ f ∧ f ≤ 281474976710656) ∧ (l = 0 ∨ l + 1 ≤ f ∧ f ≤ l + 4096) := by
      simpa [FrameBody.inRange] using range
    have fits : l < 281474976710656 := by omega
    have check := Nat.mod_eq_of_lt (show c.toNat < 65536 from c.isLt)
    have state : presenceState? ((if m then 5 else 4) % 256) = some m := by cases m <;> rfl
    simp [FrameBody.kind, FrameBody.bytes, bodyFields, decodeFrontier_sent, Nat.mod_eq_of_lt, *]

theorem decodeBody_sent (range : b.inRange = true) : decodeBody b.kind b.bytes = some b := by
  rw [decodeBody, if_pos (bodyLengthFits_bytes range), bodyFields_sent range]
  simp [range]

/-! ## The frame -/

variable {group : Byte} {k me : Station} {f : ReceiveRecord}

/-- The arbitration byte (R45). -/
def arbitrationByte (k : Station) (b : FrameBody) : Byte := BitVec.ofNat 8 (b.kind * 16 + k.val)

theorem toNat_arbitrationByte (k : Station) (b : FrameBody) : (arbitrationByte k b).toNat = b.kind * 16 + k.val := by
  have kinds : b.kind ≤ 10 := by cases b <;> simp [FrameBody.kind]
  have := k.isLt
  rw [arbitrationByte, BitVec.toNat_ofNat]
  omega

theorem coveredBytes_eq (group : Byte) (k : Station) (b : FrameBody) :
    coveredBytes group k b = arbitrationByte k b :: group :: BitVec.ofNat 8 b.bytes.length :: b.bytes := rfl

/-- The check bytes, high byte first (R182). -/
theorem natBytes_check (c : Check) : natBytes 2 c.toNat = [c.extractLsb' 8 8, c.extractLsb' 0 8] := by
  have high : BitVec.ofNat 8 (c.toNat / 256 ^ 1) = c.extractLsb' 8 8 :=
    BitVec.eq_of_toNat_eq (by simp [Nat.shiftRight_eq_div_pow])
  have low : BitVec.ofNat 8 (c.toNat / 256 ^ 0) = c.extractLsb' 0 8 := BitVec.eq_of_toNat_eq (by simp)
  rw [natBytes, natBytes, natBytes, high, low]

theorem check_append (c : Check) : c.extractLsb' 8 8 ++ c.extractLsb' 0 8 = c := by
  rw [← check_of_bytes, ← natBytes_check, check_sent]

theorem frameBytes_eq (group : Byte) (k : Station) (b : FrameBody) :
    frameBytes group k b = arbitrationByte k b :: group :: BitVec.ofNat 8 b.bytes.length :: (b.bytes ++
      [(frameCheck (coveredBytes group k b)).extractLsb' 8 8, (frameCheck (coveredBytes group k b)).extractLsb' 0 8]) := by
  rw [frameBytes, natBytes_check]
  rfl

/-- The length byte is the body's length (R183). -/
theorem toNat_lengthByte (range : b.inRange = true) : (BitVec.ofNat 8 b.bytes.length).toNat = b.bytes.length := by
  have := length_of_fits (bodyLengthFits_bytes range)
  rw [BitVec.toNat_ofNat, Nat.mod_eq_of_lt (by omega)]

theorem isWhole_frameBytes (range : b.inRange = true) : isWhole (frameBytes group k b) = true := by
  refine (isWhole_iff _).2 ⟨BitVec.ofNat 8 b.bytes.length, by rw [frameBytes_eq]; rfl, ?_⟩
  rw [toNat_lengthByte range, frameBytes_eq]
  simp
  omega

/-! ## What the filter finds of it -/

section
variable (sent : f.bytes = frameBytes group k b)
include sent

theorem kind_sent : f.kind = b.kind := by
  have := k.isLt
  rw [kind_of_frame (sent.trans (frameBytes_eq group k b)), toNat_arbitrationByte]
  omega

theorem body_sent : f.body = b.bytes := body_of_frame (sent.trans (frameBytes_eq group k b))

theorem sender_sent : f.sender = k := by
  have := k.isLt
  have first : field f.bytes 0 1 = b.kind * 16 + k.val := by
    simp [sent, frameBytes_eq, field, beNat, toNat_arbitrationByte]
  refine Fin.ext (show field f.bytes 0 1 % 16 = k.val from ?_)
  omega

theorem check_received : f.check = frameCheck (coveredBytes group k b) := by
  have covered : f.bytes.length - 2 = (coveredBytes group k b).length := by simp [sent, frameBytes]
  rw [ReceiveRecord.check, covered, sent, frameBytes, List.drop_left, check_sent]

/-- R52: every station may object to a frame that is no GONE and no REPLAY. -/
theorem scope_general (kind : b.kind ≠ 5 ∧ b.kind ≠ 6) : f.scope me = .general := by
  rw [ReceiveRecord.scope, kind_sent sent, if_neg (by simpa using kind)]

/-- R52: only the requester that a GONE or REPLAY names may object to it. -/
theorem scope_addressed {q : Station} {rest : List Byte} (kind : b.kind = 5 ∨ b.kind = 6)
    (first : b.bytes = stationByte q :: rest) :
    f.scope me = if q = me then .addressedHere else .addressedElsewhere := by
  have number : (stationByte q).toNat = q.val := by
    have := q.isLt
    rw [stationByte, BitVec.toNat_ofNat]
    omega
  rw [ReceiveRecord.scope, kind_sent sent, if_pos kind, body_sent sent, first]
  simp [number, Fin.ext_iff]

/-- R52: the scope of a frame received as it was sent. -/
theorem scope_sent :
    (f.scope me = .addressedHere ↔ (∃ g n, b = .gone me g n) ∨ (∃ g o t p, b = .replay me g o t p)) ∧
    (f.scope me = .addressedElsewhere ↔
      (∃ q g n, q ≠ me ∧ b = .gone q g n) ∨ (∃ q g o t p, q ≠ me ∧ b = .replay q g o t p)) := by
  cases b with
  | gone q | replay q =>
    rw [scope_addressed sent (by simp [FrameBody.kind]) rfl]
    by_cases here : q = me <;> simp [here]
  | _ =>
    rw [scope_general sent (by simp [FrameBody.kind])]
    simp

/-- R50, R51: a frame received as it was sent, without a framing error, is sound. -/
theorem classify_sent (range : b.inRange = true) (framing : f.framing = []) (whole : f.truncated = false)
    (readback : f.readback = false) :
    f.classify (some group) me = .sound k b (frameCheck (coveredBytes group k b)) (f.scope me) := by
  have frame := sent.trans (frameBytes_eq group k b)
  have same : f.isForeign (some group) = false := by
    rw [← Bool.not_eq_true, isForeign_of_some (g := group) (by rw [frame]; rfl)]
    simp
  have passes : f.passesCheck = true :=
    (passesCheck_iff frame whole (toNat_lengthByte range).symm).2
      ⟨framing, by simp [readback], by rw [check_append, coveredBytes_eq]⟩
  rw [ReceiveRecord.classify, same, passes, kind_sent sent, body_sent sent, decodeBody_sent range, sender_sent sent,
    check_received sent]
  simp

end

/-- Settles O59: the levels by `frameFromLevels_sent` and `frameFromLevels_brokenOff`, what the filter finds by `classify_sent`
and `scope_sent`. -/
theorem frameSentIsFrameReceived : Obligations.FrameSentIsFrameReceived := by
  refine ⟨fun levels i => ?_, fun x f i => ?_, fun group k me b own range => ?_⟩
  · simpa [framingErrors] using mem_framingErrorsFrom levels 0 i
  · refine ⟨rfl, rfl, fun data => ?_, rfl⟩
    interval_cases i <;> rfl
  · intro sent sound
    have whole : isWhole sent = true := isWhole_frameBytes range
    refine ⟨frameFromLevels_sent whole, fun n x j inside _ started unfinished => ?_,
      _, classify_sent rfl range rfl rfl rfl, scope_sent rfl⟩
    have broken := frameFromLevels_brokenOff whole x inside started unfinished
    rwa [soundFramings, List.length_take_of_le (by omega)] at broken

end Sys2Proof.Proofs
end

section
/-! The ranges of the counts along every step (R60, R81, R144, R145, R167, R179). -/

namespace Sys2Proof.Proofs

open Sys2Proof Sys2Proof.Machine

/-- From `s` to `t` the notice queue stays in its bounds and the counts stay in their ranges. -/
structure KeepsRanges (s t : State) : Prop where
  port : s.port.Bounded → t.port.Bounded
  counts : s.CountsBounded → t.CountsBounded

/-- What the bounds of the notice queue and the ranges of the counts speak of. -/
def ranged (s : State) : List Notice × Nat × List PendEntry × Nat × List OutEntry × Nat × Int × Nat :=
  (s.port.notices, s.port.lost, s.conf.entries, s.conf.budget, s.out.entries, s.out.tagCounter, s.swp.balance, s.swp.position)

namespace KeepsRanges

variable {s t u : State}

theorem refl (s : State) : KeepsRanges s s := ⟨id, id⟩

theorem trans (h : KeepsRanges s t) (k : KeepsRanges t u) : KeepsRanges s u := ⟨k.port ∘ h.port, k.counts ∘ h.counts⟩

theorem of_internal (h : Internal s t) : KeepsRanges s t := ⟨h.bounded, h.counts⟩

theorem of_ranged (h : ranged t = ranged s) : KeepsRanges s t := by
  simp only [ranged, Prod.mk.injEq] at h
  obtain ⟨notices, lost, pending, budget, queue, tag, balance, position⟩ := h
  constructor
  · rw [LocalPort.Bounded, LocalPort.Bounded, notices, lost]
    exact id
  · rw [State.CountsBounded, State.CountsBounded, pending, budget, queue, tag, balance, position]
    exact id

theorem beside (h : KeepsRanges s t) (k : ranged u = ranged t) : KeepsRanges s u := h.trans (.of_ranged k)

theorem from_ranged (h : KeepsRanges t u) (k : ranged t = ranged s) : KeepsRanges s u := (of_ranged k).trans h

theorem answer {a : Answer} (h : KeepsRanges s t) : KeepsRanges s (t.answer a) := h.beside rfl

theorem settle (h : KeepsRanges s t) : KeepsRanges s t.settle := h.trans (.of_internal (Internal.refl t).settle)

theorem settleSend (h : KeepsRanges s t) : KeepsRanges s t.settleSend := h.trans (.of_internal (Internal.refl t).settleSend)

theorem post {n : Notice} (h : KeepsRanges s t) : KeepsRanges s (t.post n) := h.trans (.of_internal (Internal.refl t).post)

theorem ite {c : Prop} [Decidable c] (h : KeepsRanges s t) (k : KeepsRanges s u) : KeepsRanges s (if c then t else u) := by
  split
  · exact h
  · exact k

/-- A command transaction in phase IDLE or not (R169). -/
theorem transaction {n : Nat} {f : State → State} (h : ∀ u : State, KeepsRanges u (f u)) :
    KeepsRanges s (s.transaction n f) :=
  .ite ((h (s.shiftOut [] n)).from_ranged rfl) (.of_ranged rfl)

end KeepsRanges

/-- A command whose working is internal. -/
theorem keepsRanges_of_works {o : Host.Outcome State Fault Refusal} {s : State} (w : Works o s) : Reaches KeepsRanges o s := by
  obtain ⟨due, t, e, internal⟩ := w
  exact ⟨t, e, internal.bounded, internal.counts⟩

section
variable (s : State)

/-! ## The local port's commands -/

/-- A command transaction out of or in reset. -/
theorem Reaches.ranges {n : Nat} {f : State → State} (h : ∀ u : State, KeepsRanges u (f u)) :
    Reaches KeepsRanges (s.act fun s => s.transaction n f) s := .act (.refl s) (.transaction h)

theorem answer_ranges (a : Answer) : KeepsRanges s (s.answer a) := (KeepsRanges.refl s).answer

theorem enterListening_ranges : KeepsRanges s s.enterListening := .of_internal (Internal.refl s).enterListening

theorem start_ranges (a b c d : Byte) (e : BitVec 16) (f : Byte) : Reaches KeepsRanges (execStart a b c d e f s) s := by
  refine .ranges s fun s => ?_
  unfold State.takeStart
  split
  · exact answer_ranges s _
  · split
    · exact answer_ranges s _
    · refine .ite (answer_ranges s _) (KeepsRanges.settle (.answer ?_))
      exact (enterListening_ranges (s.setParams _)).from_ranged rfl

theorem join_ranges : Reaches KeepsRanges (execJoin s) s :=
  .ranges s fun s => .ite (enterListening_ranges s).answer.settle (answer_ranges s _)

/-- R83: the tag counter runs from 1 to 65,535. -/
theorem nextTag_range {t : Nat} (h : t ≤ 65535) : 1 ≤ nextTag t ∧ nextTag t ≤ 65535 := by
  unfold nextTag
  split <;> omega

/-- R83: SUBMIT appends to a queue that is not full. -/
theorem append_ranges (payload : List Byte) (room : s.out.entries.length < Config.outboundMax) :
    KeepsRanges s (s.setOut { s.out with
      entries := s.out.entries ++ [newEntry s.out.tagCounter payload], tagCounter := nextTag s.out.tagCounter }) := by
  refine ⟨id, fun h => ?_⟩
  obtain ⟨pending, budget, _, _, tag, sweep⟩ := h
  exact ⟨pending, budget, by simpa using room, (nextTag_range tag).1, (nextTag_range tag).2, sweep⟩

theorem submit_ranges (payload : List Byte) : Reaches KeepsRanges (execSubmit payload s) s := by
  refine .ranges s fun s => ?_
  unfold State.takeSubmit
  refine .ite (answer_ranges s _) (.ite (answer_ranges s _) ?_)
  split
  · exact answer_ranges s _
  · next room => exact (append_ranges s payload (Nat.lt_of_not_le room)).answer.settleSend

theorem read_ranges (g : BitVec 48) : Reaches KeepsRanges (execRead g s) s :=
  .ranges s fun s => .ite (answer_ranges s _) (.ite (answer_ranges s _) (.of_ranged rfl))

/-- R180: the oldest notice leaves the queue, and the lost-notice count is cleared. -/
theorem notice_ranges : Reaches KeepsRanges (execNotice s) s := by
  refine .ranges s fun s => ?_
  unfold State.takeNotice
  split
  · exact ⟨fun h => ⟨h.1, Nat.zero_le _⟩, id⟩
  · next n rest e =>
    refine ⟨fun h => ⟨?_, Nat.zero_le _⟩, id⟩
    have shorter : rest.length ≤ s.port.notices.length := by rw [e]; exact Nat.le_succ _
    exact shorter.trans h.1

theorem takeLeave_ranges : KeepsRanges s s.takeLeave := by
  have leaves : ∀ r, KeepsRanges s (s.enterLeaving r) := fun _ => .of_internal (Internal.refl s).enterLeaving
  have detaches : KeepsRanges s s.detach := .of_internal (Internal.refl s).detach
  exact .ite (leaves _).answer (.ite detaches.answer (answer_ranges s _))

theorem takeHold_ranges : KeepsRanges s s.takeHold := by
  have leaves : KeepsRanges s (s.enterLeaving .hold) := .of_internal (Internal.refl s).enterLeaving
  exact .ite leaves.answer (answer_ranges s _)

theorem departure_ranges (c : SlotCommand) {take : State → State} (h : KeepsRanges s (take s)) :
    KeepsRanges s (s.departure c take) := .ite (.of_ranged rfl) h.settle

theorem release_ranges : Reaches KeepsRanges (execRelease s) s := by
  refine .ranges s fun s => .ite ?_ (answer_ranges s _)
  have exits : KeepsRanges s (s.enter .resuming).requestExitPass :=
    .of_internal (requestExitPass_internal (Internal.refl s).enterState)
  exact exits.answer.settle

theorem collect_ranges (n : Nat) : Reaches KeepsRanges (execCollect n s) s := by
  refine .act (.refl s) ?_
  unfold State.collect
  split
  · exact .ite (.of_ranged rfl) (.of_ranged rfl)
  · exact .of_ranged rfl

theorem deferredCommandTaken_ranges : Reaches KeepsRanges (execDeferredCommandTaken s) s := by
  refine .act (.refl s) (.ite (.refl s) ?_)
  split
  · exact (takeLeave_ranges s).settle
  · exact (takeHold_ranges s).settle
  · exact .refl s
  · exact .refl s

/-! ## Reads and writes, temperature, reset -/

theorem localReadGrant_ranges : Reaches KeepsRanges (execLocalReadGrant s) s := by
  refine .act (.refl s) ?_
  dsimp only
  split
  · exact .ite (KeepsRanges.settle (.ite (.of_ranged rfl) (.of_ranged rfl))) (.refl s)
  · exact .refl s

theorem localReadComplete_ranges : Reaches KeepsRanges (execLocalReadComplete s) s := by
  refine .act (.refl s) ?_
  split
  · exact KeepsRanges.settle (.of_ranged rfl)
  · exact .refl s

/-- The payload reaches its cell, which no count speaks of. -/
theorem ranges_of_writeCell {t : State} {g : Nat} {p : List Byte} (h : Internal (s.writeCell g p) t) : KeepsRanges s t :=
  (KeepsRanges.of_internal h).from_ranged rfl

theorem commitWriteComplete_ranges : Reaches KeepsRanges (execCommitWriteComplete s) s := by
  refine .act (.refl s) ?_
  split
  · exact .ite (.refl s) (ranges_of_writeCell s (completeLate_internal _))
  · exact .refl s

theorem earlyWriteComplete_ranges : Reaches KeepsRanges (execEarlyWriteComplete s) s := by
  refine .act (.refl s) ?_
  split
  · refine .ite (.refl s) (.ite ?_ ?_)
    · exact ranges_of_writeCell s (finishEarly_internal _)
    · exact ranges_of_writeCell s (completeLate_internal _)
  · exact .refl s

theorem temperatureEvaluation_ranges (celsius : Int) : Reaches KeepsRanges (execTemperatureEvaluation celsius s) s := by
  refine .act (.refl s) ?_
  split
  · refine .ite (.of_ranged rfl) ?_
    exact (KeepsRanges.post (.of_ranged rfl)).beside rfl
  · exact .refl s

theorem resetRelease_ranges (station : StationPins) (rate : RatePins) (slice : SlicePins) :
    Reaches KeepsRanges (execResetRelease station rate slice s) s := ⟨_, rfl, .ite (.of_ranged rfl) (.refl s)⟩

/-- R60, R81, R144, R167: the values after a hardware reset. -/
theorem hardwareReset_ranges : KeepsRanges s s.hardwareReset :=
  ⟨fun _ => show State.reset.port.Bounded by decide, fun _ => show State.reset.CountsBounded by decide⟩

end

/-! ## Every step -/

theorem exec_keepsRanges (c : Instr) (s : State) : Reaches KeepsRanges (exec c s) s := by
  cases c with
  | hardwareReset => exact ⟨_, rfl, hardwareReset_ranges s⟩
  | resetRelease a b c => exact resetRelease_ranges s a b c
  | start a b c d e f => exact start_ranges s a b c d e f
  | join => exact join_ranges s
  | submit p => exact submit_ranges s p
  | read g => exact read_ranges s g
  | status => exact .ranges s fun s => answer_ranges s _
  | peers => exact .ranges s fun s => answer_ranges s _
  | notice => exact notice_ranges s
  | leave => exact .ranges s fun s => departure_ranges s _ (takeLeave_ranges s)
  | hold => exact .ranges s fun s => departure_ranges s _ (takeHold_ranges s)
  | release => exact release_ranges s
  | malformedCommand o p => exact .ranges s fun s => answer_ranges s _
  | collect n => exact collect_ranges s n
  | deferredCommandTaken => exact deferredCommandTaken_ranges s
  | commitWriteComplete => exact commitWriteComplete_ranges s
  | earlyWriteComplete => exact earlyWriteComplete_ranges s
  | localReadGrant => exact localReadGrant_ranges s
  | localReadComplete => exact localReadComplete_ranges s
  | temperatureEvaluation z => exact temperatureEvaluation_ranges s z
  | syncWaitEnd => exact keepsRanges_of_works syncWaitEnd_works
  | frameStart => exact keepsRanges_of_works frameStart_works
  | ownFrameStart => exact keepsRanges_of_works ownFrameStart_works
  | arbitrationLost => exact keepsRanges_of_works arbitrationLost_works
  | readbackFailure => exact keepsRanges_of_works readbackFailure_works
  | duplicateStation => exact keepsRanges_of_works duplicateStation_works
  | frameEnd b l => exact keepsRanges_of_works (frameEnd_works b l)
  | frameTruncated b l => exact keepsRanges_of_works (frameTruncated_works b l)
  | windowOpen => exact keepsRanges_of_works windowOpen_works
  | objectionPullEnd => exact keepsRanges_of_works objectionPullEnd_works
  | windowEnd n => exact keepsRanges_of_works (windowEnd_works n)
  | separationEnd => exact keepsRanges_of_works separationEnd_works
  | dataLineFault => exact keepsRanges_of_works dataLineFault_works
  | faultWaitEnd => exact keepsRanges_of_works faultWaitEnd_works
  | objectionLineFault => exact keepsRanges_of_works objectionLineFault_works
  | objectionLineRecovery => exact keepsRanges_of_works objectionLineRecovery_works
  | listenTimerExpiry => exact keepsRanges_of_works listenTimerExpiry_works
  | joinWaitExpiry => exact keepsRanges_of_works joinWaitExpiry_works
  | leaveTimerExpiry => exact keepsRanges_of_works leaveTimerExpiry_works
  | heartbeatTick => exact keepsRanges_of_works heartbeatTick_works
  | peerSilent k => exact keepsRanges_of_works (peerSilent_works k)
  | presenceTimerExpiry => exact keepsRanges_of_works presenceTimerExpiry_works
  | quietMarkExpiry k => exact keepsRanges_of_works (quietMarkExpiry_works k)
  | staleWaitEnd => exact keepsRanges_of_works staleWaitEnd_works
  | backoffEnd => exact keepsRanges_of_works backoffEnd_works
  | catchUpDeadline => exact keepsRanges_of_works catchUpDeadline_works
  | responderBackoffEnd => exact keepsRanges_of_works responderBackoffEnd_works
  | drainComplete => exact keepsRanges_of_works drainComplete_works
  | commitWriteGrant => exact keepsRanges_of_works commitWriteGrant_works
  | replayReadGrant => exact keepsRanges_of_works replayReadGrant_works
  | replayReadComplete => exact keepsRanges_of_works replayReadComplete_works
  | sweepSliceGrant => exact keepsRanges_of_works sweepSliceGrant_works
  | sweepSliceComplete => exact keepsRanges_of_works sweepSliceComplete_works
  | intervalTimerExpiry => exact keepsRanges_of_works intervalTimerExpiry_works
  | pullIn => exact keepsRanges_of_works pullIn_works
  | portQuietPullIn => exact keepsRanges_of_works portQuietPullIn_works
  | holdTimerExpiry => exact keepsRanges_of_works holdTimerExpiry_works
  | internalPassGrant => exact keepsRanges_of_works internalPassGrant_works
  | internalPassComplete => exact keepsRanges_of_works internalPassComplete_works
  | exitPassGrant => exact keepsRanges_of_works exitPassGrant_works
  | exitPassComplete => exact keepsRanges_of_works exitPassComplete_works

theorem step_keepsRanges {s t : State} (h : step s = .next t) : KeepsRanges s t := by
  unfold step at h
  split at h
  · cases h
    exact .ite (.refl s) (.of_ranged rfl)
  · next c rest _ =>
    obtain ⟨u, next, keeps⟩ := exec_keepsRanges c (s.setPending rest)
    obtain rfl : t = u := Host.Outcome.next.inj (h.symm.trans next)
    exact keeps.from_ranged rfl

/-- Settles O54, by `step_keepsRanges`: what works inside the blocks keeps the ranges, a SUBMIT finds room, a NOTICE only
removes. -/
theorem stepsKeepTheCountsInRange : Obligations.StepsKeepTheCountsInRange := fun _ _ port counts h =>
  ⟨(step_keepsRanges h).port port, (step_keepsRanges h).counts counts⟩

end Sys2Proof.Proofs
end

section
/-! The completion of a late write (R15, R72): the slot is COMMITTED, the entry gone. -/

namespace Sys2Proof.Proofs

open Sys2Proof Sys2Proof.Machine

variable {s : State} {w : CurrentWrite} {e : PendEntry} {i : RecordInfo}

/-- R15: COMMITTED is posted for an own live record. -/
theorem postCommitted_eq (s : State) (e : PendEntry) : s.postCommitted e = s.setPort
    (if e.live = true ∧ e.origin = s.straps.station then s.port.post (.committed e.tag e.gsn) else s.port) := by
  unfold State.postCommitted
  split <;> rfl

theorem fillingInfo_of_held {d : Directory} {g : Nat} (h : d.held g = some (.filling g i)) : d.fillingInfo g = some i := by
  rw [Directory.fillingInfo, h]

/-- R15, R72: a late write whose slot is FILLING. -/
theorem finishLate_filling (present : writtenEntry s w = some e) (slot : s.dir.held w.gsn = some (.filling w.gsn i)) :
    s.finishLate w = { s with
      dir := s.dir.put (.committed w.gsn i)
      port := if e.live = true ∧ e.origin = s.straps.station then s.port.post (.committed e.tag w.gsn) else s.port
      conf := { s.conf with entries := s.conf.entries.filter fun x => x.gsn != w.gsn } } := by
  have gsn := writtenEntry_gsn present
  have commit : s.commitSlot e = (s.setDir (s.dir.put (.committed w.gsn i))).postCommitted e := by
    rw [State.commitSlot, gsn, fillingInfo_of_held slot]
  unfold State.finishLate
  rw [show (if w.entryPresent then s.conf.entries.find? fun e => e.gsn == w.gsn else none) = some e from present]
  dsimp only
  rw [commit, postCommitted_eq, gsn]
  rfl

/-- What follows the write's completion in the same event leaves these blocks alone. -/
theorem completeLate_blocks (s : State) (w : CurrentWrite) : let u := (s.endWrite w).finishLate w
    (s.completeLate w).dir = u.dir ∧ (s.completeLate w).port = u.port ∧ (s.completeLate w).conf = u.conf ∧
    (s.completeLate w).mem = u.mem := by
  intro u
  obtain ⟨_, mem, conf, dir, _⟩ := beside_iff.1 (beside_respSettle (s := u))
  refine ⟨(settle_dir _).trans dir, (settle_port _).trans (respSettle_port u), (settle_conf _).trans conf, ?_⟩
  rw [State.completeLate, (Follows.settle _).same]
  exact mem

/-- A write that counts as late completes. -/
theorem exec_commitWriteComplete (released : s.resetHeld = false) (holds : s.portOp = some .commitWrite)
    (write : s.conf.write = some w) (late : w.early = false) : exec .commitWriteComplete s = .next (s.completeLate w) := by
  show execCommitWriteComplete s = _
  rw [execCommitWriteComplete, act_released released, State.writing, if_pos holds, write]
  simp [late]

/-- Settles O44: the cell and the port by `completeLate_writeEnds`, the slot and the entry by `finishLate_filling`. -/
theorem lateWriteCommits : Obligations.LateWriteCommits := by
  intro s w e i released holds write late present found slot
  have ends := completeLate_writeEnds (s := s) (w := w)
  have entry : writtenEntry (s.endWrite w) w = some e := (if_pos present).trans found
  obtain ⟨dir, port, conf, mem⟩ := completeLate_blocks s w
  rw [finishLate_filling entry slot] at dir port conf mem
  refine ⟨_, exec_commitWriteComplete released holds write late, ends.inside, ends.outside, ?_, ends.window, ends.frontier,
    fun g apart => ?_, port, conf, ends.grant, ends.now, ends.bus, mem, ends.tagCounter, ends.temp, ends.straps, ends.params⟩
  · rw [dir]
    exact held_put_same (x := .committed w.gsn i)
  · rw [dir]
    exact held_put_of_apart (x := .committed w.gsn i) apart.symm

end Sys2Proof.Proofs
end

section
/-! The commit writer's grant (R70, R71, R141, R142), and what follows by itself at the array port. -/

namespace Sys2Proof.Proofs

open Sys2Proof Sys2Proof.Machine

variable {s t : State} {e : PendEntry} {who : PortClient} {q : Request}

/-! ## The requests at the array port -/

/-- The state in which the sweep engine's request is judged, where all else at the array port has followed (R146). -/
theorem settle_request_sweep (s : State) :
    ∃ u, Follows s u ∧ u.arb.sweep = s.arb.sweep ∧ s.settle.arb = u.settleSweep.arb := by
  refine ⟨_, .trans .settlePresence (.trans .settleHead (.trans .settleWriter .settleQuiet)), ?_, rfl⟩
  have writer : ∀ u : State, u.settleWriter.arb.sweep = u.arb.sweep := fun u => by
    unfold State.settleWriter State.withdraw
    repeat' split
    all_goals rfl
  have quiet : ∀ u : State, u.settleQuiet.arb = u.arb := fun u => by
    unfold State.settleQuiet
    repeat' split
    all_goals rfl
  have head : ∀ u : State, u.settleHead.arb = u.arb := fun u => by
    unfold State.settleHead
    repeat' split
    all_goals rfl
  rw [quiet, writer, head, settlePresence_eq]
  rfl

/-- R146: a sweep request that waits is raised in its rank at most. -/
theorem settle_sweep_waits (h : s.arb.sweep = some q) : ∃ r, s.settle.arb.sweep = some { q with rank := r } := by
  obtain ⟨u, _, waits, settled⟩ := settle_request_sweep s
  rw [h] at waits
  rw [settled]
  unfold State.settleSweep
  split
  · exact ⟨q.rank, waits⟩
  · split
    · exact ⟨q.rank, waits⟩
    · next absent => cases waits.symm.trans absent
    · next r p _ present =>
      obtain rfl : q = p := Option.some.inj (waits.symm.trans present)
      split
      · exact ⟨r, rfl⟩
      · exact ⟨q.rank, waits⟩

/-- What follows by itself leaves a request of another block than the writer as it arrived. -/
theorem settle_request (other : who ≠ .writer) (h : s.arb.request who = some q) :
    ∃ p, s.settle.arb.request who = some p ∧ p.atFree = q.atFree := by
  cases who with
  | writer => exact absurd rfl other
  | responder => exact ⟨q, (Follows.settle s).responder.trans h, rfl⟩
  | localPort => exact ⟨q, (Follows.settle s).localPort.trans h, rfl⟩
  | sweep =>
    obtain ⟨r, waits⟩ := settle_sweep_waits h
    exact ⟨_, waits, rfl⟩

theorem settle_portOp (s : State) : s.settle.portOp = s.portOp := congrArg (Option.map Grant.op) (Follows.settle s).grant

theorem mem_waiting {a : Arbiter} (h : a.request who = some q) : q ∈ a.waiting := by
  simp only [Arbiter.waiting, List.mem_append, Option.mem_toList]
  cases who with
  | writer => exact .inl (.inl (.inl h))
  | responder => exact .inl (.inl (.inr h))
  | localPort => exact .inl (.inr h)
  | sweep => exact .inr h

/-- R141: the others' requests have waited through the grant. -/
theorem granting_request {a : Arbiter} (other : who ≠ .writer) :
    (a.granting .writer).request who = (a.request who).map Request.passedOver := by
  cases who with
  | writer => exact absurd rfl other
  | _ => rfl

/-- R141: while a request waits that has waited through a grant, all are granted by rank. -/
theorem grantsByRank_of_passedOver (h : t.arb.request who = some q) (f : q.atFree = false) : grantsByRank t :=
  fun _ _ request grantable => rank_of_grantable request grantable (mem_waiting h) f

/-! ## The grant -/

/-- The entries once an early write has been tried (R66). -/
theorem tryEntry_eq (s : State) (e : PendEntry) : s.tryEntry e = s.setEntries
    (if e.isConfirmed then s.conf.entries else replaceEntry e.gsn { e with status := .awaitingWindow true } s.conf.entries) := by
  unfold State.tryEntry
  split <;> rfl

/-- R71: the entry's slot passes the test, and its write begins. -/
theorem grantWrite_passed (test : s.slotTest e = true) :
    (s.grantWrite e).conf = { (s.tryEntry e).conf with write := some {
      gsn := e.gsn, payload := e.payload, grantedEarly := !e.isConfirmed, early := !e.isConfirmed, entryPresent := true } } ∧
    (s.grantWrite e).portOp = some .commitWrite ∧
    ∃ g, (s.grantWrite e).arb = { s.arb.granting .writer with grant := some g } := by
  unfold State.grantWrite
  rw [if_pos test, tryEntry_eq]
  exact ⟨rfl, rfl, _, rfl⟩

/-- R71, R142: it does not, and the grant is given up. -/
theorem grantWrite_failed (test : s.slotTest e = false) :
    (s.grantWrite e).conf = (if e.isConfirmed then { s.conf with entries := removeEntry e.gsn s.conf.entries }
      else (s.tryEntry e).conf) ∧
    (s.grantWrite e).arb = s.arb.granting .writer := by
  unfold State.grantWrite
  rw [if_neg (by simp [test])]
  dsimp only
  split
  · exact ⟨rfl, rfl⟩
  · simp only [tryEntry_eq]
    exact ⟨rfl, rfl⟩

/-- The grant changes the confirmation unit and the array port. -/
theorem grantWrite_eq (s : State) (e : PendEntry) : s.grantWrite e = { s with
    conf := (s.grantWrite e).conf, arb := (s.grantWrite e).arb, swp := (s.grantWrite e).swp } := by
  unfold State.grantWrite
  simp only [tryEntry_eq]
  split
  · rfl
  · split <;> rfl

theorem exec_commitWriteGrant (released : s.resetHeld = false) (grantable : s.grantable .writer = true)
    (idle : s.conf.write = none) (chosen : s.chosenEntry = some e) :
    exec .commitWriteGrant s = .next (s.grantWrite e).settle := by
  show execCommitWriteGrant s = _
  rw [execCommitWriteGrant, act_released released, chosen]
  simp [grantable, idle]

theorem grant_of_grantable (h : s.grantable who = true) : s.arb.grant = none := by
  unfold State.grantable at h
  split at h
  · cases h
  · simp only [Bool.and_eq_true, Option.isNone_iff_eq_none] at h
    exact h.1

/-- R141: the requests that waited through the writer's grant are then granted by rank. -/
theorem grantWrite_byRank (s : State) (e : PendEntry)
    (waits : s.arb.responder ≠ none ∨ s.arb.localPort ≠ none ∨ s.arb.sweep ≠ none) :
    grantsByRank (s.grantWrite e).settle := by
  have others : ∃ who q, who ≠ .writer ∧ s.arb.request who = some q := by
    rcases waits with h | h | h <;> obtain ⟨q, h⟩ := Option.ne_none_iff_exists'.1 h
    · exact ⟨.responder, q, by decide, h⟩
    · exact ⟨.localPort, q, by decide, h⟩
    · exact ⟨.sweep, q, by decide, h⟩
  obtain ⟨who, q, other, request⟩ := others
  have passed : (s.grantWrite e).arb.request who = some q.passedOver := by
    have granting : (s.grantWrite e).arb.request who = (s.arb.granting .writer).request who := by
      cases test : s.slotTest e with
      | true =>
        obtain ⟨_, _, g, arb⟩ := grantWrite_passed test
        rw [arb]
        cases who <;> rfl
      | false => rw [(grantWrite_failed test).2]
    rw [granting, granting_request other, request]
    rfl
  obtain ⟨p, settled, free⟩ := settle_request other passed
  exact grantsByRank_of_passedOver settled free

/-- What the writer's grant leaves alone. -/
theorem grantWrite_settle (s : State) (e : PendEntry) : let t := (s.grantWrite e).settle
    t.conf = (s.grantWrite e).conf ∧ t.now = s.now ∧ t.dir = s.dir ∧ t.bus = s.bus ∧ t.mem = s.mem ∧ t.cat = s.cat ∧
    t.port = s.port := by
  dsimp only
  rw [(Follows.settle (s.grantWrite e)).same, grantWrite_eq]
  exact ⟨rfl, rfl, rfl, rfl, rfl, rfl, rfl⟩

/-! ## The entry to write -/

theorem chosenEntry_confirmed (h : s.conf.entries.find? PendEntry.isConfirmed = some e) : s.chosenEntry = some e := by
  rw [State.chosenEntry, h]

theorem chosenEntry_early (none : s.conf.entries.find? PendEntry.isConfirmed = .none)
    (h : s.conf.entries.find? s.eligible = some e) : s.chosenEntry = some e ∧ e.isConfirmed = false := by
  refine ⟨by rw [State.chosenEntry, none]; exact h, ?_⟩
  simpa using List.find?_eq_none.1 none e (List.mem_of_find?_eq_some h)

/-- R71: the directory's test of an early write. -/
theorem slotTest_early (early : e.isConfirmed = false) : s.slotTest e = true ↔
    if e.live then s.dir.slotAt (slotOf e.gsn) = none else s.dir.held e.gsn = some (.gap e.gsn) := by
  rw [State.slotTest, if_neg (by simp [early])]
  cases e.live with
  | true => simp
  | false => simp [Directory.holdsGap_iff]

/-- R66, R71: an entry granted early is marked tried, whether it is written or not. -/
theorem grantWrite_tried (early : e.isConfirmed = false) : (s.grantWrite e).conf.entries =
    replaceEntry e.gsn { e with status := .awaitingWindow true } s.conf.entries := by
  cases test : s.slotTest e with
  | true =>
    rw [(grantWrite_passed test).1, tryEntry_eq, if_neg (by simp [early])]
    rfl
  | false =>
    rw [(grantWrite_failed test).1, if_neg (by simp [early]), tryEntry_eq, if_neg (by simp [early])]
    rfl

/-- Settles O43: the slot that passes the test by `grantWrite_passed`, any other by `grantWrite_failed`. -/
theorem commitWriterIsGranted : Obligations.CommitWriterIsGranted := by
  intro s e released grantable idle
  have free := grant_of_grantable grantable
  have ranks := grantWrite_byRank s e
  obtain ⟨conf, now, dir, bus, mem, cat, port⟩ := grantWrite_settle s e
  have portOp := settle_portOp (s.grantWrite e)
  have grant := (Follows.settle (s.grantWrite e)).grant
  refine ⟨fun found => ?_, fun none found => ?_⟩
  · have confirmed : e.isConfirmed = true := List.find?_some found
    have next := exec_commitWriteGrant released grantable idle (chosenEntry_confirmed found)
    refine ⟨_, next, ?_, ranks, keepsFixed_of_works commitWriteGrant_works next, now, dir, bus, mem, cat, port⟩
    have test : s.slotTest e = (s.dir.fillingInfo e.gsn).isSome := if_pos confirmed
    rw [conf, portOp, grant, ← test]
    cases passed : s.slotTest e with
    | true =>
      obtain ⟨conf, op, _⟩ := grantWrite_passed passed
      rw [if_pos rfl, conf, op, tryEntry_eq, confirmed]
      exact ⟨rfl, rfl⟩
    | false =>
      obtain ⟨conf, arb⟩ := grantWrite_failed passed
      rw [if_neg (by decide), conf, arb, if_pos confirmed]
      exact ⟨rfl, free⟩
  · obtain ⟨chosen, early⟩ := chosenEntry_early none found
    have next := exec_commitWriteGrant released grantable idle chosen
    refine ⟨_, next, by rw [conf, grantWrite_tried early], ?_, ranks, keepsFixed_of_works commitWriteGrant_works next, now,
      dir, bus, mem, cat, port⟩
    rw [conf, portOp, grant]
    cases passed : s.slotTest e with
    | true =>
      obtain ⟨conf, op, _⟩ := grantWrite_passed passed
      rw [if_pos ((slotTest_early early).1 passed), conf, op, early]
      exact ⟨rfl, rfl⟩
    | false =>
      obtain ⟨conf, arb⟩ := grantWrite_failed passed
      have fails := mt (slotTest_early (s := s) early).2 (by simp [passed])
      rw [if_neg fails, conf, arb, if_neg (by simp [early]), tryEntry_eq]
      exact ⟨idle, free⟩

end Sys2Proof.Proofs
end

section
/-! The end of the drain (R77, R104, R117, R161). -/

namespace Sys2Proof.Proofs

open Sys2Proof Sys2Proof.Machine

variable {s : State} {b : Batch} {l : LeaveRecord}

/-! ## The end of an event -/

/-- R106, R121: outside the group no gap report is acted on and no context formed. -/
theorem followGaps_outside (outside : b.st.inGroup = false) : b.followGaps = b := by
  obtain ⟨notSyncing, notMember⟩ := inGroup_false.1 outside
  have report : b.gapReport = b := by
    rw [Batch.gapReport, if_neg fun h => notMember h.1, if_neg fun h => notSyncing h.1]
  rw [Batch.followGaps, Batch.formContexts, report, if_neg fun h => notSyncing h.1]

/-- An event that ends outside the group and owes no notice. -/
theorem finish_on_outside {f : State → State} (outside : (f s).inGroup = false) : (s.batch.on f).finish = (f s).settle := by
  have left : (s.batch.on f).st.inGroup = false := outside
  rw [Batch.finish, recheck_outside left, followGaps_outside left]
  rfl

theorem finish_mem (b : Batch) : b.finish.mem = { b.st.mem with st := b.finish.mem.st } := by
  have seeks := (Pursues.refl b).recheck.followGaps.seeks.same
  have ends : b.finish.mem = b.recheck.followGaps.st.mem := (flush_settle_beside b.recheck.followGaps).2.2.1
  rw [ends, seeks]

theorem finish_abides (b : Batch) : Abides b.st b.finish :=
  (Abides.pursued.followGaps (Abides.pursued.recheck (.refl b.st))).trans (settle_flush_abides _)

/-! ## The departures that the drain ends -/

theorem switchTo_swp (s : State) (target : RxState) :
    (s.switchTo target).swp = { s.swp with idleSince := (s.switchTo target).swp.idleSince } := by
  unfold State.switchTo State.finishOwn State.retune
  simp only [setRx_eq]
  split <;> rfl

theorem switchTo_rx {target : RxState} (free : s.ownUnderWay = false) : (s.switchTo target).bus.rx = target := by
  rw [State.switchTo, free]
  exact (retune_bus s target).1

/-- The station with its LEAVE record gone and its interface switched off (R117, R161). -/
def switchedOff (s : State) : State := (s.setMem { s.mem with leave := none }).switchTo .off

theorem switchedOff_eq (s : State) : switchedOff s = { s with
    bus := (switchedOff s).bus
    filter := (switchedOff s).filter
    conf := { s.conf with decision := (switchedOff s).conf.decision }
    mem := { s.mem with leave := none, tick := (switchedOff s).mem.tick }
    swp := { s.swp with idleSince := (switchedOff s).swp.idleSince } } := by
  have swp : (switchedOff s).swp = { s.swp with idleSince := (switchedOff s).swp.idleSince } := switchTo_swp _ _
  have kept := switchTo_eq (s.setMem { s.mem with leave := none }) .off
  rw [← swp]
  exact kept

theorem switchedOff_rx (free : s.ownUnderWay = false) : (switchedOff s).bus.rx = .off :=
  switchTo_rx (s := s.setMem { s.mem with leave := none }) free

theorem detach_eq (s : State) : s.detach = (switchedOff s).enter .detached := rfl

/-- R154: the port quiet time stands at 0 while the sweep engine's request waits. -/
theorem place_sweep_eq (s : State) (rank : Nat) : s.place .sweep rank = { s with
    arb := { s.arb with sweep := some { rank := rank, since := s.now, atFree := s.arb.grant.isNone } }
    swp := { s.swp with quietSince := none } } := by
  have waits : (s.arb.setRequest .sweep (some { rank := rank, since := s.now, atFree := s.arb.grant.isNone })).quiet = false := by
    simp [Arbiter.quiet, Arbiter.waiting, Arbiter.setRequest]
  rw [State.place, State.withArb, waits]
  rfl

theorem withdraw_sweep_eq (s : State) : s.withdraw .sweep = { s with
    arb := { s.arb with sweep := none }
    swp := { s.swp with quietSince := (s.withdraw .sweep).swp.quietSince } } := by
  unfold State.withdraw
  split
  · next absent =>
    have none : s.arb.sweep = none := absent
    rw [← none]
  · rfl

/-- R161: HELD is entered, an internal pass requested, and the hold timer runs. -/
theorem enterHeld_eq (s : State) : s.enterHeld = { (switchedOff s).enter .held with
    arb := { (switchedOff s).arb with sweep := some {
      rank := 8, since := (switchedOff s).now, atFree := (switchedOff s).arb.grant.isNone } }
    swp := { (switchedOff s).swp with
      quietSince := none, licence := false, intervalEnd := none, passState := some .waiting
      holdTimer := some ((switchedOff s).now + holdSpacing (switchedOff s).temp.cls) } } := by
  rw [State.enterHeld, show (s.setMem { s.mem with leave := none }).switchTo .off = switchedOff s from rfl]
  generalize switchedOff s = off
  rw [place_sweep_eq, withdraw_sweep_eq]
  rfl

/-- R161: in HELD the sweep engine places no request of its own. -/
theorem settle_sweep_onHold (hold : s.onHold = true) : s.settle.arb.sweep = s.arb.sweep := by
  obtain ⟨u, follows, waits, settled⟩ := settle_request_sweep s
  have held : u.onHold = true := by rw [follows.same]; exact hold
  have none : u.sweepRank = none := by rw [State.sweepRank, held]; rfl
  rw [settled, ← waits, State.settleSweep, none]
  split <;> rfl

/-! ## The end of the drain -/

/-- The state in which the confirmation unit reports that its drain is complete (R77). -/
abbrev drainEnds (s : State) : State := s.setConf { s.conf with drain := false }

theorem exec_drainComplete (released : s.resetHeld = false) (drain : s.conf.drain = true) (empty : s.conf.entries = [])
    (idle : s.conf.write = none) : exec .drainComplete s = .next (drainEnds s).batch.drained.finish := by
  refine (act_released released).trans ?_
  rw [if_pos ⟨drain, empty, idle⟩]

/-- R77: the report changes neither the directory nor the pending window. -/
theorem drained_keeps (b : Batch) : b.drained.st.dir = b.st.dir ∧ b.drained.st.conf = { b.st.conf with
    budget := b.drained.st.conf.budget, decision := b.drained.st.conf.decision } := by
  unfold Batch.drained
  split
  · split
    · rw [Batch.on, enterHeld_eq, switchedOff_eq]
      exact ⟨rfl, rfl⟩
    · rw [Batch.on, detach_eq, switchedOff_eq]
      exact ⟨rfl, rfl⟩
  · split <;> exact ⟨rfl, rfl⟩
  · exact ⟨rfl, rfl⟩

theorem drained_leaving (st : b.st.mem.st = .leaving) (leave : b.st.mem.leave = some l) :
    b.drained = b.on (if l.reason = .hold then State.enterHeld else State.detach) := by
  unfold Batch.drained
  rw [st, leave]
  dsimp only
  split <;> rfl

theorem drained_joining (st : b.st.mem.st = .joining) (owed : b.st.mem.joinOwed = true) : b.drained = b.enterGroup := by
  unfold Batch.drained
  rw [st]
  exact if_pos owed

/-- R77: in every other state the report is only taken. -/
theorem drained_elsewhere (leaving : b.st.mem.st ≠ .leaving) (joining : b.st.mem.st ≠ .joining) : b.drained = b := by
  unfold Batch.drained
  split
  · next st _ => exact absurd st leaving
  · next _ st => exact absurd st joining
  · rfl

/-- R117: the end of a departure that is not a HOLD. -/
theorem drained_detaches (st : s.mem.st = .leaving) (leave : s.mem.leave = some l) (reason : l.reason ≠ .hold) :
    let t := s.batch.drained.finish
    t.mem.st = .detached ∧ t.mem.leave = none ∧ t.port.notices = (s.port.post (.state .detached)).notices ∧
    (s.ownUnderWay = false → t.bus.rx = .off) := by
  have ends : s.batch.drained.finish = s.detach.settle := by
    rw [drained_leaving (b := s.batch) st leave, if_neg reason, finish_on_outside rfl]
  dsimp only
  rw [ends, (Follows.settle s.detach).same, detach_eq]
  refine ⟨rfl, ?_, ?_, switchedOff_rx⟩
  · rw [switchedOff_eq]; rfl
  · rw [switchedOff_eq]; rfl

/-- R161: the end of a departure to HELD. -/
theorem drained_holds (st : s.mem.st = .leaving) (leave : s.mem.leave = some l) (reason : l.reason = .hold) :
    let t := s.batch.drained.finish
    t.mem.st = .held ∧ t.mem.leave = none ∧ t.swp.passState = some .waiting ∧
    t.swp.holdTimer = some (s.now + holdSpacing s.temp.cls) ∧ t.swp.intervalEnd = none ∧ t.swp.licence = false ∧
    t.swp.balance = s.swp.balance ∧ (∃ q, t.arb.sweep = some q ∧ q.rank = 8) ∧
    t.port.notices = (s.port.post (.state .held)).notices := by
  have held : s.enterHeld.mem.st = .held := by rw [enterHeld_eq]; rfl
  have ends : s.batch.drained.finish = s.enterHeld.settle := by
    have outside : s.enterHeld.inGroup = false := by simp [State.inGroup, held]
    rw [drained_leaving (b := s.batch) st leave, if_pos reason, finish_on_outside outside]
  have sweep := settle_sweep_onHold (s := s.enterHeld) (by simp [State.onHold, held])
  dsimp only
  rw [ends, sweep, (Follows.settle s.enterHeld).same, enterHeld_eq, switchedOff_eq]
  exact ⟨rfl, rfl, rfl, rfl, rfl, rfl, rfl, ⟨_, rfl, rfl⟩, rfl⟩

/-- R104: a joiner whose JOIN stands becomes a member. -/
theorem drained_joins (st : s.mem.st = .joining) (owed : s.mem.joinOwed = true) : let t := s.batch.drained.finish
    (t.mem.st = .syncing ∨ t.mem.st = .member) ∧ t.mem.presence = some (s.now + s.heartbeat) ∧ t.conf.budget = 0 := by
  dsimp only
  rw [drained_joining (b := s.batch) st owed]
  have group : s.batch.enterGroup.st.inGroup = true := by
    have entered : s.batch.enterGroup.st.mem.st = if 0 < s.dir.gapCount then .syncing else .member := rfl
    rw [inGroup_iff, entered]
    split
    · exact .inl rfl
    · exact .inr rfl
  refine ⟨inGroup_iff.1 ((finish_abides _).group.trans group), ?_, ?_⟩
  · rw [finish_mem]; rfl
  · rw [finish_conf]; rfl

theorem drained_stays (outside : s.inGroup = false) (leaving : s.mem.st ≠ .leaving) (joining : s.mem.st ≠ .joining) :
    let t := s.batch.drained.finish
    t.mem = s.mem ∧ t.bus = s.bus ∧ t.port = s.port := by
  have ends : s.batch.drained.finish = s.settle := by
    rw [drained_elsewhere (b := s.batch) leaving joining]
    exact finish_on_outside (f := id) outside
  dsimp only
  rw [ends, (Follows.settle s).same]
  exact ⟨rfl, rfl, rfl⟩

/-- Settles O42, by the station state in which the drain ends. -/
theorem drainCompleteEndsTheDeparture : Obligations.DrainCompleteEndsTheDeparture := by
  intro s released drain empty idle
  have next := exec_drainComplete released drain empty idle
  obtain ⟨dir, conf⟩ := drained_keeps (drainEnds s).batch
  have abides := finish_abides (drainEnds s).batch.drained
  have now : (drainEnds s).batch.drained.finish.now = s.now :=
    now_of_internal (Internal.finish (.drained (b := State.batch _) (.setConf_same (.refl s) rfl rfl)))
  refine ⟨_, next, by rw [abides.conf, conf]; rfl, by rw [abides.conf, conf]; exact empty,
    keepsFixed_of_works drainComplete_works next, now, abides.window.trans (congrArg _ dir),
    abides.frontier.trans (congrArg _ dir), fun l => drained_detaches (s := drainEnds s),
    fun l => drained_holds (s := drainEnds s), drained_joins (s := drainEnds s), fun elsewhere => ?_⟩
  obtain ⟨outside, leaving, joining⟩ : s.inGroup = false ∧ s.mem.st ≠ .leaving ∧ s.mem.st ≠ .joining := by
    rcases elsewhere with st | st | st | st <;> simp [State.inGroup, st]
  exact drained_stays (s := drainEnds s) outside leaving joining

end Sys2Proof.Proofs
end

section
/-! The selector's choice through an event's own effects (R96, R97): it stands or it ends, and nothing but what follows by itself makes
one. -/

namespace Sys2Proof.Proofs

open Sys2Proof Sys2Proof.Machine

/-- From `s` to `t` no choice has been made: the one that stood still stands, or it has ended. -/
def Unchosen (s t : State) : Prop := t.sel.choice = s.sel.choice ∨ t.sel.choice = none

namespace Unchosen

variable {s t u : State} {b : Batch} {who : Sender} {f : FrameBody}

theorem refl (s : State) : Unchosen s s := .inl rfl

theorem of_sel (h : t.sel = s.sel) : Unchosen s t := .inl (by rw [h])

theorem trans (h : Unchosen s t) (k : Unchosen t u) : Unchosen s u := by
  rcases k with stands | ended
  · rcases h with stands' | ended'
    · exact .inl (stands.trans stands')
    · exact .inr (stands.trans ended')
  · exact .inr ended

/-- A step that leaves the selector alone. -/
theorem beside (h : Unchosen s t) (k : u.sel = t.sel) : Unchosen s u := h.trans (of_sel k)

theorem ite {c : Prop} [Decidable c] (h : Unchosen s t) (k : Unchosen s u) : Unchosen s (if c then t else u) := by
  split
  · exact h
  · exact k

/-! ## Offers -/

theorem offer (s : State) : Unchosen s (s.offer who f) := .inl offer_choice

theorem unoffer (s : State) : Unchosen s (s.unoffer who) := by
  have kept : (s.sel.setOffer who none).choice = s.sel.choice := by cases who <;> rfl
  unfold State.unoffer
  dsimp only
  split
  · exact .inr rfl
  · exact .inl kept

theorem reoffer (s : State) : Unchosen s (s.reoffer who f) :=
  ite (refl s) ((unoffer s).trans (offer _))

theorem discardFlight (s : State) : Unchosen s (s.discardFlight who) := by
  unfold State.discardFlight
  split
  · exact ite (.inl rfl) (refl s)
  · exact refl s

theorem startChoice (s : State) : Unchosen s (s.startChoice who) := by
  unfold State.startChoice State.startRecord
  split
  · split
    · exact refl s
    · exact .inr rfl
  · exact .inr rfl
  · exact refl s

theorem returnOffer (s : State) {x : InFlight} : Unchosen s (s.returnOffer x) := by
  have landed : Unchosen s (s.setSel { s.sel with inFlight := none }) := .inl rfl
  unfold State.returnOffer
  dsimp only
  refine ite landed ?_
  split
  · exact landed.beside rfl
  · exact landed
  · exact (landed.trans (offer _)).trans (.inl rfl)

/-! ## Notices -/

theorem post {n : Notice} : Unchosen s (s.post n) := of_sel rfl

theorem postAll (s : State) {l : List Notice} : Unchosen s (s.postAll l) := of_sel (by rw [postAll_eq]; rfl)

theorem flush (b : Batch) : Unchosen b.st b.flush := postAll _

theorem journal (s : State) {c : JournalChange} : Unchosen s (s.journal c) := (of_sel rfl : Unchosen s (s.setDir c.dir)).trans (postAll _)

/-! ## The outbound queue -/

theorem dropAll (s : State) {r : DropReason} : Unchosen s (s.dropAll r) := by
  rw [dropAll_eq]
  exact (unoffer s).beside rfl

theorem spendNumbers (s : State) : Unchosen s s.spendNumbers := ite (refl s) (dropAll s)

theorem departQueue (s : State) : Unchosen s s.departQueue := by
  unfold State.departQueue
  split
  · split
    · exact ite (of_sel rfl) (dropAll s)
    · exact dropAll s
  · exact dropAll s

theorem finishDeparture (s : State) : Unchosen s s.finishDeparture := ite (dropAll s) (refl s)

theorem endStaleWait (s : State) : Unchosen s s.endStaleWait := by
  unfold State.endStaleWait
  split
  · split
    · exact of_sel rfl
    · exact refl s
  · exact refl s

theorem recordResult (s : State) {c : Observed} {x : Bool} : Unchosen s (s.recordResult c x) := by
  refine of_sel ?_
  unfold State.recordResult
  dsimp only
  repeat' split
  all_goals rfl

/-! ## The catch-up unit -/

/-- The requester's work makes no choice. -/
theorem pursued : Pursued Unchosen where
  refl := refl
  trans := trans
  unoffer := unoffer
  offer s _ := offer s
  discardFlight := discardFlight
  setRequester _ _ := of_sel rfl
  markLost _ _ := of_sel rfl
  enter _ _ _ _ := of_sel rfl

theorem applyRetired (s : State) {l : List Nat} : Unchosen s (s.applyRetired l) := by
  unfold State.applyRetired
  split
  · exact refl s
  · exact of_sel rfl

theorem offerResponse (s : State) {r : ResponderCtx} : Unchosen s (s.offerResponse r f) :=
  (of_sel rfl : Unchosen s (s.setResponder _)).trans (reoffer _)

theorem respDecide (s : State) {r : ResponderCtx} : Unchosen s (s.respDecide r) :=
  ite (refl s) (ite (offerResponse s) (of_sel rfl))

theorem respSettle (s : State) : Unchosen s s.respSettle := by
  unfold State.respSettle
  split
  · refine ite ?_ (refl s)
    split
    · exact refl s
    · exact refl s
    · exact respDecide s
  · exact refl s

theorem endResponder (s : State) : Unchosen s s.endResponder := by
  unfold State.endResponder
  split
  · exact refl s
  · have gone := (unoffer (who := .responder) s).trans (discardFlight (who := .responder) _)
    exact (gone.beside withdraw_sel).beside rfl

theorem takeFetch (s : State) {k : Station} {g n : Nat} : Unchosen s (s.takeFetch k g n) := by
  unfold State.takeFetch
  split
  · exact refl s
  · exact respDecide s

theorem respResult (s : State) {x y : Bool} : Unchosen s (s.respResult x y) := by
  unfold State.respResult
  split
  · split
    · exact ite (ite (endResponder s) (respDecide s)) (ite (endResponder s) (ite (of_sel rfl) (offerResponse s)))
    · exact refl s
  · exact refl s

theorem fetchResult (s : State) {x : Bool} : Unchosen s (s.fetchResult x) := by
  refine of_sel ?_
  unfold State.fetchResult
  repeat' split
  all_goals rfl

theorem clearContexts (b : Batch) : Unchosen b.st b.clearContexts.st := pursued.endRequester (endResponder b.st)

theorem timeOut (b : Batch) : Unchosen b.st b.timeOut.st := by
  unfold Batch.timeOut
  split
  · split
    · split
      · exact of_sel rfl
      · unfold Batch.applyTimeout
        split
        · exact pursued.endRequester (pursued.giveUp (of_sel rfl))
        · exact pursued.selectResponder (of_sel rfl)
    · exact refl _
  · exact refl _

/-! ## The membership unit -/

theorem switchTo_sel (s : State) {target : RxState} : (s.switchTo target).sel = s.sel := by rw [switchTo_eq]

theorem enter_sel (s : State) {x : StationState} : (s.enter x).sel = s.sel := rfl

theorem switchTo (s : State) {target : RxState} : Unchosen s (s.switchTo target) := of_sel (switchTo_sel s)

theorem requestDrain_sel (s : State) : s.resetPeers.requestDrain.sel = s.sel := rfl

theorem leaveGroup (b : Batch) : Unchosen b.st (leaveGroup b).st := by
  have departed : Unchosen b.st (b.on fun s => (s.unoffer .membership).departQueue).st := (unoffer b.st).trans (departQueue _)
  have cleared := departed.trans (clearContexts _)
  unfold Proofs.leaveGroup
  generalize (b.on fun s => (s.unoffer .membership).departQueue).clearContexts = d at cleared ⊢
  exact cleared.beside (requestDrain_sel d.st)

theorem endGroupPart (b : Batch) : Unchosen b.st b.endGroupPart.st := by
  rw [endGroupPart_eq]
  exact (of_sel rfl : Unchosen b.st (b.on _).st).trans (leaveGroup _)

theorem leaveLost (b : Batch) : Unchosen b.st b.leaveLost.st := by
  unfold Batch.leaveLost
  split
  · split
    · exact endGroupPart b
    · exact refl _
  · exact refl _

theorem enterFault (b : Batch) : Unchosen b.st b.enterFault.st := by
  rw [enterFault_eq, on_st]
  exact ((of_sel rfl : Unchosen b.st ((b.enter .fault).on _).st).trans (leaveGroup _)).trans (switchTo _)

theorem duplicateFound (s : State) : Unchosen s s.duplicateFound := by
  have found : Unchosen s ((s.post .duplicateStation).setFilter { s.filter with receive := none }).batch.st := of_sel rfl
  exact (found.trans (enterFault _)).trans (flush _)

theorem enterListening_sel (s : State) : s.enterListening.sel = s.sel := by
  unfold State.enterListening
  dsimp only
  rw [enter_sel]
  split
  · rfl
  · rw [switchTo_sel]
    rfl

theorem enterListening (s : State) : Unchosen s s.enterListening := of_sel (enterListening_sel s)

theorem suspendContexts_sel (s : State) : s.suspendContexts.sel = s.sel := by
  unfold State.suspendContexts
  dsimp only
  split
  · split <;> exact withdraw_sel
  · exact withdraw_sel

theorem enterLeaving (s : State) {r : LeaveReason} : Unchosen s (s.enterLeaving r) := by
  unfold State.enterLeaving
  dsimp only
  have left : Unchosen s (s.unoffer .membership).suspendContexts := (unoffer s).beside (suspendContexts_sel _)
  generalize (s.unoffer .membership).suspendContexts = u at left
  exact left.trans (.trans (of_sel rfl) (offer _))

theorem detach (s : State) : Unchosen s s.detach := of_sel (by rw [detach_eq, switchedOff_eq]; rfl)

theorem enterHeld (s : State) : Unchosen s s.enterHeld := of_sel (by rw [enterHeld_eq, switchedOff_eq]; rfl)

theorem drained (b : Batch) : Unchosen b.st b.drained.st := by
  unfold Batch.drained
  split
  · split
    · exact enterHeld _
    · exact detach _
  · split
    · exact of_sel rfl
    · exact refl _
  · exact refl _

theorem leaveResult (b : Batch) {x : Bool} : Unchosen b.st (b.leaveResult x).st := by
  unfold Batch.leaveResult
  split
  · exact refl _
  · split
    · exact refl _
    · split
      · exact endGroupPart b
      · dsimp only
        split
        · exact (of_sel rfl : Unchosen b.st (b.on _).st).trans (endGroupPart _)
        · exact (of_sel rfl : Unchosen b.st (b.on _).st).trans (offer _)

theorem foundResult (b : Batch) {x : Bool} : Unchosen b.st (b.foundResult f x).st := by
  have founded : Unchosen b.st ((b.st.setDir b.st.dir.found).postAll (lostNotices b.st.dir.gaps)) :=
    .trans (of_sel rfl) (postAll _)
  have entered : ∀ c : Batch, Unchosen c.st c.enterGroup.st := fun c => of_sel rfl
  unfold Batch.foundResult
  split
  · exact refl _
  · split
    · exact founded.trans (entered _)
    · exact offer _

theorem memberResult (b : Batch) {x : Bool} : Unchosen b.st (b.memberResult f x).st := by
  unfold Batch.memberResult
  split
  · exact foundResult b
  · unfold Batch.joinResult
    split
    · exact refl _
    · split
      · exact offer _
      · split <;> exact of_sel rfl
  · exact leaveResult b
  · exact ite (offer _) (refl _)
  · exact refl _

/-! ## The end of a window -/

theorem ownConfirmed (s : State) : Unchosen s s.ownConfirmed := by
  refine ite ?_ (refl s)
  exact ite ((of_sel rfl : Unchosen s (s.setMem _)).trans (unoffer _)) (of_sel rfl)

theorem deliver (b : Batch) {c : Observed} {x : Bool} : Unchosen b.st (b.deliver c x).st := by
  unfold Batch.deliver
  split
  · exact refl _
  · have landed : Unchosen b.st (if c = .none then (b.on fun s => s.setSel { s.sel with inFlight := none }).on State.ownConfirmed
        else b.on fun s => s.setSel { s.sel with inFlight := none }).st := by
      split
      · exact .trans (t := b.st.setSel { b.st.sel with inFlight := none }) (.inl rfl) (ownConfirmed _)
      · exact .inl rfl
    dsimp only
    generalize (if c = .none then (b.on fun s => s.setSel { s.sel with inFlight := none }).on State.ownConfirmed
        else b.on fun s => s.setSel { s.sel with inFlight := none }) = d at landed ⊢
    split
    · exact landed
    · split
      · split
        · exact landed.beside rfl
        · exact landed
      · exact landed.trans (memberResult d)
      · exact landed.trans (fetchResult _)
      · exact landed.trans (respResult _)
      · exact landed.trans ((recordResult _).trans (finishDeparture _))

theorem flagFault (s : State) : Unchosen s s.flagFault := of_sel (by rw [flagFault_eq]; rfl)

theorem peerHeard (s : State) {k : Station} : Unchosen s (s.peerHeard k f) := ite (of_sel rfl) (of_sel rfl)

theorem checkDivergence (s : State) {k : Station} {p : Nat} {c : Check} : Unchosen s (s.checkDivergence k p c) := by
  have flagged : ∀ u : State, u.sel = s.sel → u.flagFault.sel = s.sel := fun u e => by rw [flagFault_eq]; exact e
  refine of_sel ?_
  unfold State.checkDivergence
  dsimp only
  split
  · rfl
  · split
    · split
      · exact flagged _ rfl
      · exact flagged _ rfl
    · rfl

theorem presenceHeard (s : State) {k : Station} {p : Nat} {c : Check} : Unchosen s (s.presenceHeard k p c).1 :=
  (checkDivergence s).trans (journal _)

theorem peerLeft (b : Batch) {k : Station} : Unchosen b.st (b.peerLeft k).st := by
  have responder : Unchosen b.st (b.on fun s => match s.cat.responder with
      | some r => if r.requester = k then s.endResponder else s
      | none => s).st := by
    rw [on_st]
    split
    · exact ite (endResponder _) (refl _)
    · exact refl _
  unfold Batch.peerLeft
  dsimp only
  split
  · split
    · split
      · exact responder.trans (timeOut _)
      · exact responder
    · exact responder
  · exact responder

theorem replayHeard (b : Batch) {k : Station} {g : Nat} {x : Bool} : Unchosen b.st (b.replayHeard k g x).st := by
  unfold Batch.replayHeard
  split
  · split <;> exact of_sel rfl
  · exact of_sel rfl

theorem goneHeard (b : Batch) {k : Station} {g n : Nat} : Unchosen b.st (b.goneHeard k g n).st := by
  unfold Batch.goneHeard
  split
  · exact refl _
  · split
    · dsimp only
      split <;> exact of_sel rfl
    · exact refl _

theorem handMember (b : Batch) {k : Station} {x : Bool} {l : List Nat} : Unchosen b.st (b.handMember k f x l).st := by
  have heard : Unchosen b.st (b.on fun s => s.peerHeard k f).st := peerHeard b.st
  unfold Batch.handMember
  dsimp only
  generalize (b.on fun s => s.peerHeard k f) = d at heard ⊢
  split
  · next p _ c _ =>
    have taught : Unchosen b.st (d.on fun _ => (d.st.presenceHeard k p c).1.applyRetired (d.st.presenceHeard k p c).2).st :=
      heard.trans ((presenceHeard d.st).trans (applyRetired _))
    have asked := pursued.recheck taught
    unfold Batch.presenceHeard
    split
    · split
      · exact pursued.selectResponder asked
      · exact asked
    · exact asked
  · exact heard.trans (peerLeft d)
  · split
    · exact heard.trans (takeFetch _)
    · exact heard
  · split
    · exact heard.trans (goneHeard d)
    · exact heard
  · split
    · exact heard.trans (replayHeard d)
    · exact heard
  · exact heard.trans (applyRetired _)
  · exact heard
  · exact heard
  · exact heard

theorem learn (s : State) {n : Nat} : Unchosen s (s.learn n) := by
  unfold State.learn
  dsimp only
  refine .trans ?_ (reoffer _)
  split
  · exact post.trans ((journal _).beside rfl)
  · exact (journal _).beside rfl

theorem groupHeard (b : Batch) {k : Station} : Unchosen b.st (b.groupHeard k f).st := by
  have heard : Unchosen b.st (b.on fun s => s.peerHeard k f).st := peerHeard b.st
  unfold Batch.groupHeard
  dsimp only
  generalize (b.on fun s => s.peerHeard k f) = d at heard ⊢
  have joins : Unchosen b.st (if d.st.mem.st ≠ .joining then
      (d.on fun s => (s.unoffer .membership).setMem { s.mem with listenTimer := none }).enter .joining else d).st := by
    split
    · exact heard.trans ((unoffer _).beside rfl)
    · exact heard
  generalize (if d.st.mem.st ≠ .joining then
      (d.on fun s => (s.unoffer .membership).setMem { s.mem with listenTimer := none }).enter .joining else d) = e at joins ⊢
  split
  · exact joins.trans (learn _)
  · split
    · exact joins.beside rfl
    · exact joins

theorem handOn (b : Batch) {c : Option Classified} {x : Bool} {l : List Nat} : Unchosen b.st (b.handOn c x l).st := by
  unfold Batch.handOn
  split
  · split
    · exact handMember b
    · split
      · exact groupHeard b
      · exact refl _
  · exact refl _

theorem afterOutcome (b : Batch) {n : Nat} : Unchosen b.st (b.afterOutcome n).st :=
  pursued.followGaps ((pursued.recheck (refl b.st)).trans ((respSettle _).trans
    ((ite (endStaleWait _) (refl _)).trans (spendNumbers _))))

theorem closed (s : State) {w : WindowRun} {c : Observed} : Unchosen s (closed s w c).st := by
  have decided : Unchosen s (outcome s c) := of_sel (by rw [outcome_eq])
  unfold Proofs.closed
  split
  · unfold State.closeOverlapping
    split
    · exact (deliver s.batch).trans (afterOutcome _)
    · exact refl s
  · rw [closeJudged_eq]
    dsimp only
    split
    · refine .trans ?_ (enterFault _)
      split
      · exact decided.trans (deliver _)
      · exact decided
    · refine .trans ?_ (afterOutcome _)
      split
      · exact decided.trans ((deliver (outcome s c).batch).trans (applyRetired _))
      · split
        · exact decided.trans (handOn _)
        · exact decided

theorem finishSwitch (s : State) : Unchosen s s.finishSwitch := by
  unfold State.finishSwitch
  split
  · exact ite (refl s) (of_sel (by rw [retune_eq]))
  · exact refl s

end Unchosen

end Sys2Proof.Proofs
end

section
/-! The head and the choice along every step (R85, R96): what follows by itself at the end of an event brings both in line, and an
event that ends without it leaves alone what they depend on. -/

namespace Sys2Proof.Proofs

open Sys2Proof Sys2Proof.Machine

variable {s t u : State} {who : Sender}

/-! ## The order of the choice (R96) -/

theorem kindAllowed_iff {st : StationState} {b : FrameBody} : kindAllowed st b = true ↔ b.allowedIn st := by
  cases b <;> simp [kindAllowed, FrameBody.allowedIn]

theorem offers_iff : s.sel.offers s.mem.st who = true ↔ s.offerAllowed who := by
  have framed : (match s.sel.offer who with | some b => kindAllowed s.mem.st b | none => false) = true ↔
      ∃ b, s.sel.offer who = some b ∧ b.allowedIn s.mem.st := by
    cases s.sel.offer who with
    | none => simp
    | some b => simp [kindAllowed_iff]
  cases who with
  | outbound => simp [Selector.offers, State.offerAllowed]
  | _ => exact framed

@[simp] theorem choiceOrder_sweep : s.choiceOrder .sweep = 1 := rfl
@[simp] theorem choiceOrder_responder : s.choiceOrder .responder = 3 := rfl
@[simp] theorem choiceOrder_requester : s.choiceOrder .requester = 4 := rfl
@[simp] theorem choiceOrder_outbound : s.choiceOrder .outbound = 5 := rfl

theorem choiceOrder_membership : s.choiceOrder .membership = if s.sel.offersPresence then 6 else 2 := by
  unfold State.choiceOrder Selector.offersPresence
  cases s.sel.membership with
  | none => rfl
  | some b => cases b <;> rfl

/-- A choice newly made: on an idle bus, the first allowed offer in the order of R96. -/
def FirstChoice (t : State) (who : Sender) : Prop :=
  t.bus.rx = .idle ∧ t.offerAllowed who ∧ ∀ x, t.offerAllowed x → t.choiceOrder who ≤ t.choiceOrder x

/-- What the selector picks is the first allowed offer: one behind it in the order comes no earlier, one before it was not allowed. -/
theorem first_of_pick (h : s.sel.pick s.mem.st = some who) :
    s.offerAllowed who ∧ ∀ x, s.offerAllowed x → s.choiceOrder who ≤ s.choiceOrder x := by
  have order := choiceOrder_membership (s := s)
  simp only [← offers_iff]
  unfold Selector.pick at h
  split at h
  · next sweep =>
    cases h
    refine ⟨sweep, fun x _ => ?_⟩
    cases x with
    | membership => rw [order]; split <;> simp
    | _ => simp
  next sweep =>
  split at h
  · next member =>
    cases h
    obtain ⟨member, other⟩ := Bool.and_eq_true_iff.1 member
    rw [if_neg (by simpa using other)] at order
    refine ⟨member, fun x allowed => ?_⟩
    cases x with
    | sweep => exact absurd allowed sweep
    | _ => simp [order]
  next member =>
  have late : s.sel.offers s.mem.st .membership = true → s.choiceOrder .membership = 6 := fun allowed => by
    rw [order, if_pos (by simpa [allowed] using member)]
  split at h
  · next responder =>
    cases h
    refine ⟨responder, fun x allowed => ?_⟩
    cases x with
    | sweep => exact absurd allowed sweep
    | membership => simp [late allowed]
    | _ => simp
  next responder =>
  split at h
  · next requester =>
    cases h
    refine ⟨requester, fun x allowed => ?_⟩
    cases x with
    | sweep => exact absurd allowed sweep
    | membership => simp [late allowed]
    | responder => exact absurd allowed responder
    | _ => simp
  next requester =>
  split at h
  · next outbound =>
    cases h
    refine ⟨outbound, fun x allowed => ?_⟩
    cases x with
    | sweep => exact absurd allowed sweep
    | membership => simp [late allowed]
    | responder => exact absurd allowed responder
    | requester => exact absurd allowed requester
    | outbound => exact le_rfl
  next outbound =>
  split at h
  · next presence =>
    cases h
    refine ⟨presence, fun x allowed => ?_⟩
    cases x with
    | sweep => exact absurd allowed sweep
    | membership => exact le_rfl
    | responder => exact absurd allowed responder
    | requester => exact absurd allowed requester
    | outbound => exact absurd allowed outbound
  · cases h

/-- The selector picks something where an allowed offer is present. -/
theorem not_allowed_of_pick (h : s.sel.pick s.mem.st = none) : ¬ s.offerAllowed who := by
  rw [← offers_iff]
  intro allowed
  unfold Selector.pick at h
  cases who <;> grind

/-- R96, R97: a choice that stands is kept, on an idle bus another is picked. -/
theorem settleChoice_cases (s : State) : (∃ c, s.sel.choice = some c ∧ s.settleChoice.sel.choice = some c) ∨
    s.settleChoice.sel.choice = if s.bus.rx = .idle then s.sel.pick s.mem.st else none := by
  unfold State.settleChoice
  cases e : s.sel.choice with
  | none => exact .inr rfl
  | some c =>
    cases allowed : s.sel.offers s.mem.st c with
    | true => exact .inl ⟨c, rfl, by simp [allowed]⟩
    | false => exact .inr (by simp [allowed])

theorem pick_settleChoice : s.settleChoice.sel.pick s.settleChoice.mem.st = s.sel.pick s.mem.st := rfl

theorem settleChoice_first (h : s.settleChoice.sel.choice = some who) (fresh : s.sel.choice ≠ some who) :
    FirstChoice s.settleChoice who := by
  rcases settleChoice_cases s with ⟨c, stood, stands⟩ | picked
  · exact absurd (stood.trans (stands.symm.trans h)) fresh
  · rw [h] at picked
    split at picked
    · next idle => exact ⟨idle, first_of_pick (pick_settleChoice.trans picked.symm)⟩
    · cases picked

theorem settleChoice_made (s : State) : s.settleChoice.ChoiceMade := by
  intro idle none who
  rcases settleChoice_cases s with ⟨c, _, stands⟩ | picked
  · cases stands.symm.trans none
  · rw [if_pos (show s.bus.rx = .idle from idle), none] at picked
    exact not_allowed_of_pick (pick_settleChoice.trans picked.symm)

/-! ## The head and the choice in line -/

/-- From `s` to `t` the head stays in line, and the choice has been made as R96 says. -/
structure InLine (s t : State) : Prop where
  head : s.HeadFollowsConditions → t.HeadFollowsConditions
  made : s.ChoiceMade → t.ChoiceMade
  first : ∀ who, t.sel.choice = some who → s.sel.choice ≠ some who → FirstChoice t who

/-- What the head's line and the choice depend on. -/
def lineView (s : State) : List OutEntry × Selector × StationState × RxState × Bool :=
  (s.out.entries, s.sel, s.mem.st, s.bus.rx, s.mayStartRecord)

theorem offerAllowed_congr (sel : t.sel = s.sel) (st : t.mem.st = s.mem.st) : t.offerAllowed who ↔ s.offerAllowed who := by
  rw [← offers_iff, ← offers_iff, sel, st]

theorem choiceOrder_congr (sel : t.sel = s.sel) : t.choiceOrder who = s.choiceOrder who := by
  cases who with
  | membership => rw [choiceOrder_membership, choiceOrder_membership, sel]
  | _ => rfl

namespace InLine

theorem of_view (h : lineView t = lineView s) : InLine s t := by
  simp only [lineView, Prod.mk.injEq] at h
  obtain ⟨entries, sel, st, rx, may⟩ := h
  refine ⟨headFollows_of_eq entries (by rw [sel]) may, fun made idle none who => ?_, fun who new old => ?_⟩
  · rw [offerAllowed_congr sel st]
    exact made (rx ▸ idle) (sel ▸ none) who
  · exact absurd (sel ▸ new) old

theorem refl (s : State) : InLine s s := of_view rfl

theorem from_view (h : InLine t u) (e : lineView t = lineView s) : InLine s u := by
  have start := of_view e
  refine ⟨h.head ∘ start.head, h.made ∘ start.made, fun who new old => h.first who new ?_⟩
  simp only [lineView, Prod.mk.injEq] at e
  rwa [e.2.1]

theorem ite {c : Prop} [Decidable c] (h : c → InLine s t) (k : ¬c → InLine s u) : InLine s (if c then t else u) := by
  split
  · exact h ‹_›
  · exact k ‹_›

/-- An event that ends in the head and the choice. -/
theorem of_settled (h : Unchosen s u) (head : u.settleChoice.HeadFollowsConditions) : InLine s u.settleChoice := by
  refine ⟨fun _ => head, fun _ => settleChoice_made u, fun who new old => settleChoice_first new ?_⟩
  rcases h with stands | ended
  · rwa [stands]
  · simp [ended]

theorem settleSend (h : Unchosen s u) : InLine s u.settleSend :=
  of_settled (h.trans (.inl (by rw [settleHead_sel]))) (headFollows_settleSend u)

theorem settle (h : Unchosen s u) : InLine s u.settle := by
  refine of_settled ?_ (headFollows_settle u)
  have presence : Unchosen u u.settlePresence := by
    unfold State.settlePresence
    split
    · split
      · exact .refl u
      · exact (Unchosen.reoffer u).trans (.inl rfl)
    · exact .inl rfl
  have quiet : ∀ v : State, Unchosen v v.settleQuiet := fun v => by
    unfold State.settleQuiet
    split
    · exact .ite (.refl v) (.unoffer v)
    · exact .ite (.offer v) (.refl v)
  have head : Unchosen s u.settlePresence.settleHead := (h.trans presence).trans (.inl (by rw [settleHead_sel]))
  exact ((head.beside settleWriter_sel).trans (quiet _)).beside settleSweep_sel

/-- A command transaction in phase IDLE or not (R169). -/
theorem transaction {n : Nat} {f : State → State} (h : ∀ u : State, InLine u (f u)) : InLine s (s.transaction n f) :=
  .ite (fun _ => (h (s.shiftOut [] n)).from_view rfl) fun _ => .of_view rfl

end InLine

/-- The start conditions as R85 gives them. -/
theorem mayStartRecord_iff : s.mayStartRecord = true ↔ (s.mem.st = .syncing ∨ s.mem.st = .member) ∧
    (∀ k, (s.mem.peer k).quiet = none) ∧ s.conf.entries.length < 4 ∧ s.dir.frontier ≤ 2 ^ 48 - 1 := by
  have unmarked : s.noQuietMark = true ↔ ∀ k, (s.mem.peer k).quiet = none := by
    simp only [State.noQuietMark, List.all_eq_true, Option.isNone_iff_eq_none, Vector.mem_toList_iff, Vector.mem_iff_getElem,
      Membership.peer]
    exact ⟨fun h k => h _ ⟨k, k.isLt, rfl⟩, fun h p ⟨i, lt, e⟩ => e ▸ h ⟨i, lt⟩⟩
  simp only [State.mayStartRecord, Bool.and_eq_true, inGroup_iff, unmarked, decide_eq_true_eq, and_assoc]
  exact and_congr_right fun _ => and_congr_right fun _ => and_congr_right fun _ => Nat.lt_iff_le_pred (by decide)

/-- R85 of a head in line: CONTENDING exactly while the start conditions hold, and a RECORD offered for a CONTENDING head alone. -/
theorem headFollows_spec (h : s.HeadFollowsConditions) :
    (∀ e rest, s.out.entries = e :: rest → e.state = .waiting → s.mayStartRecord = false) ∧
    (∀ e rest, s.out.entries = e :: rest → e.state = .contending → s.mayStartRecord = true) ∧
    (s.sel.record = true ↔ ∃ e rest, s.out.entries = e :: rest ∧ e.state = .contending) := by
  unfold State.HeadFollowsConditions at h
  cases entries : s.out.entries with
  | nil =>
    rw [entries] at h
    simp [show s.sel.record = false from h]
  | cons e rest =>
    rw [entries] at h
    dsimp only at h
    split at h
    · obtain ⟨record, state⟩ := h
      cases may : s.mayStartRecord <;> simp_all
    · next busy =>
      rw [not_or] at busy
      simp_all

end Sys2Proof.Proofs
end

section
/-! Every command keeps the head and the choice in line (R85, R96). -/

namespace Sys2Proof.Proofs

open Sys2Proof Sys2Proof.Machine

variable (s : State)

/-! ## What leaves the selector alone -/

theorem answer_sel (a : Answer) : (s.answer a).sel = s.sel := rfl
theorem beginFrame_sel (own : Bool) : (s.beginFrame own).sel = s.sel := rfl
theorem withArb_sel (a : Arbiter) : (s.withArb a).sel = s.sel := rfl
theorem place_sel (who : PortClient) (r : Nat) : (s.place who r).sel = s.sel := rfl
theorem takeGrant_sel (who : PortClient) (op : PortOp) (ends : Option Nat) : (s.takeGrant who op ends).sel = s.sel := rfl
theorem giveUpGrant_sel (who : PortClient) : (s.giveUpGrant who).sel = s.sel := rfl
theorem freePort_sel : s.freePort.sel = s.sel := rfl

/-! ## The local port's commands -/

/-- A command transaction out of or in reset. -/
theorem Reaches.inLine {n : Nat} {f : State → State} (h : ∀ u : State, InLine u (f u)) :
    Reaches InLine (s.act fun s => s.transaction n f) s := .act (.refl s) (.transaction h)

theorem answer_inLine (a : Answer) : InLine s (s.answer a) := .of_view rfl

theorem start_inLine (a b c d : Byte) (e : BitVec 16) (f : Byte) : Reaches InLine (execStart a b c d e f s) s := by
  refine .inLine s fun s => ?_
  unfold State.takeStart
  refine .ite (fun _ => answer_inLine s _) fun _ => ?_
  split
  · exact answer_inLine s _
  · next p _ =>
    have listens : Unchosen s (s.setParams (some p)).enterListening := Unchosen.enterListening (s.setParams (some p))
    exact .ite (fun _ => answer_inLine s _) fun _ => .settle (listens.beside rfl)

theorem join_inLine : Reaches InLine (execJoin s) s :=
  .inLine s fun s => .ite (fun _ => .settle ((Unchosen.enterListening s).beside rfl)) fun _ => answer_inLine s _

theorem submit_inLine (p : List Byte) : Reaches InLine (execSubmit p s) s := by
  refine .inLine s fun s => ?_
  unfold State.takeSubmit
  refine .ite (fun _ => answer_inLine s _) fun _ => .ite (fun _ => answer_inLine s _) fun _ =>
    .ite (fun _ => answer_inLine s _) fun _ => ?_
  exact .settleSend (.of_sel rfl)

theorem read_inLine (g : BitVec 48) : Reaches InLine (execRead g s) s :=
  .inLine s fun s => .ite (fun _ => answer_inLine s _) fun _ => .ite (fun _ => answer_inLine s _) fun _ => .of_view rfl

theorem notice_inLine : Reaches InLine (execNotice s) s := by
  refine .inLine s fun s => ?_
  unfold State.takeNotice
  split <;> exact .of_view rfl

theorem takeLeave_unchosen : Unchosen s s.takeLeave :=
  .ite ((Unchosen.enterLeaving s).beside (answer_sel _ _)) (.ite ((Unchosen.detach s).beside (answer_sel _ _))
    (.of_sel (answer_sel s _)))

theorem takeHold_unchosen : Unchosen s s.takeHold := 
  .ite ((Unchosen.enterLeaving s).beside (answer_sel _ _)) (.of_sel (answer_sel s _))

theorem departure_inLine (c : SlotCommand) {f : State → State} (h : Unchosen s (f s)) : InLine s (s.departure c f) :=
  .ite (fun _ => .of_view rfl) fun _ => .settle h

theorem requestExitPass_sel : s.requestExitPass.sel = s.sel := by
  unfold State.requestExitPass
  dsimp only
  rw [place_sel]
  split
  · exact (freePort_sel _).trans withdraw_sel
  · exact withdraw_sel

theorem release_inLine : Reaches InLine (execRelease s) s := by
  refine .inLine s fun s => .ite (fun _ => .settle ?_) fun _ => answer_inLine s _
  have resumes : Unchosen s (s.enter .resuming) := .of_sel rfl
  exact (resumes.beside (requestExitPass_sel _)).beside rfl

theorem collect_inLine (n : Nat) : Reaches InLine (execCollect n s) s := by
  refine .act (.refl s) ?_
  unfold State.collect
  split
  · exact .ite (fun _ => .of_view rfl) fun _ => .of_view rfl
  · exact .of_view rfl

theorem deferredCommandTaken_inLine : Reaches InLine (execDeferredCommandTaken s) s := by
  refine .act (.refl s) (.ite (fun _ => .refl s) fun _ => ?_)
  split
  · exact .settle (takeLeave_unchosen s)
  · exact .settle (takeHold_unchosen s)
  · exact .refl s
  · exact .refl s

/-! ## Bus events -/

theorem syncWaitEnd_inLine : Reaches InLine (execSyncWaitEnd s) s :=
  .act (.refl s) (.ite (fun _ => .settle (.of_sel (by rw [reachIdle_eq]; rfl))) fun _ => .refl s)

theorem frameStart_inLine : Reaches InLine (execFrameStart s) s :=
  .act (.refl s) (.ite (fun _ => .of_view rfl) fun _ => .ite (fun _ => .settle (.inr rfl)) fun _ => .refl s)

theorem ownFrameStart_inLine : Reaches InLine (execOwnFrameStart s) s := by
  refine .act (.refl s) ?_
  split
  · exact .refl s
  · exact .ite (fun _ => .settle ((Unchosen.startChoice s).beside (beginFrame_sel _ _))) fun _ => .refl s

theorem arbitrationLost_inLine : Reaches InLine (execArbitrationLost s) s := by
  refine .act (.refl s) ?_
  dsimp only
  split
  · next r f _ _ =>
    have returned : Unchosen s (s.returnOffer f) := .returnOffer s
    refine .settle (.trans ?_ (.flush _))
    refine Unchosen.pursued.followGaps (Unchosen.pursued.recheck (.trans ?_ (.leaveLost _)))
    exact returned.beside rfl
  · exact .refl s

theorem readbackFailure_inLine : Reaches InLine (execReadbackFailure s) s := by
  refine .act (.refl s) ?_
  dsimp only
  split
  · exact .of_view rfl
  · exact .refl s

theorem duplicateStation_inLine : Reaches InLine (execDuplicateStation s) s := by
  refine .act (.refl s) ?_
  split
  · exact .ite (fun _ => .settle (.duplicateFound s)) fun _ => .refl s
  · exact .refl s

theorem judge_sel (c : Classified) (own : Bool) : (s.judge c own).sel = s.sel := by
  unfold State.judge
  repeat' split
  all_goals rfl

theorem endFrame_sel (r : ReceiveRecord) : (s.endFrame r).sel = s.sel := by
  unfold State.endFrame
  dsimp only
  split
  · rfl
  · exact judge_sel _ _ _

theorem frameEnds_inLine (r : ReceiveRecord) (due : Nat) : InLine s (s.frameEnds r due) := by
  have moved : Unchosen s (s.at due) := .of_sel rfl
  exact .ite (fun _ => .settle (moved.trans (.duplicateFound _))) fun _ => .settle (moved.beside (endFrame_sel _ r))

theorem frameEnd_inLine (b : List Byte) (l : List FramingLevels) : Reaches InLine (execFrameEnd b l s) s := by
  refine .act (.refl s) ?_
  split
  · exact .ite (fun _ => frameEnds_inLine s _ _) fun _ => .refl s
  · exact .refl s

theorem frameTruncated_inLine (b : List Byte) (l : List FramingLevels) : Reaches InLine (execFrameTruncated b l s) s := by
  refine .act (.refl s) ?_
  split
  · exact .ite (fun _ => frameEnds_inLine s _ _) fun _ => .refl s
  · exact .refl s

theorem windowOpen_inLine : Reaches InLine (execWindowOpen s) s := by
  refine .act (.refl s) ?_
  split
  · exact .settle (.of_sel (by rw [openWindow_eq]))
  · exact .refl s

theorem objectionPullEnd_inLine : Reaches InLine (execObjectionPullEnd s) s := by
  refine .act (.refl s) ?_
  dsimp only
  split
  · exact .of_view rfl
  · exact .refl s

theorem closeWindow_inLine (w : WindowRun) (rest : List WindowRun) (n : Nat) : InLine s (s.closeWindow w rest n) := by
  have left : Unchosen s (closing s w rest n) := .of_sel (closing_spec s w rest n).2.2.2.2.2.2.2
  exact .settle (((left.trans (.closed (w := w) (c := w.observed n) _)).trans (.flush _)).trans (.finishSwitch _))

theorem windowEnd_inLine (n : Nat) : Reaches InLine (execWindowEnd n s) s := by
  refine .act (.refl s) ?_
  split
  · exact .ite (fun _ => closeWindow_inLine s _ _ _) fun _ => .refl s
  · exact .refl s

theorem separationEnd_inLine : Reaches InLine (execSeparationEnd s) s := by
  refine .act (.refl s) (.ite (fun _ => .settle (.of_sel ?_)) fun _ => .refl s)
  split <;> rfl

theorem dataLineFault_inLine : Reaches InLine (execDataLineFault s) s :=
  .act (.refl s) (.ite (fun _ => .settle (.of_sel (by rw [dataLineFault_eq]))) fun _ => .refl s)

theorem faultWaitEnd_inLine : Reaches InLine (execFaultWaitEnd s) s :=
  .act (.refl s) (.ite (fun _ => .settle (.of_sel (by rw [reachIdle_eq]; rfl))) fun _ => .refl s)

theorem objectionFault_inLine : InLine s s.objectionFault := by
  rw [objectionFault_eq]
  exact .ite (fun _ => .refl s) fun _ => .of_view rfl

/-! ## Timers -/

theorem listenTimerExpiry_inLine : Reaches InLine (execListenTimerExpiry s) s := by
  refine .act (.refl s) ?_
  dsimp only
  split
  · exact .settle (.trans (.of_sel rfl) (.reoffer _))
  · exact .refl s

theorem joinWaitExpiry_inLine : Reaches InLine (execJoinWaitExpiry s) s := by
  refine .act (.refl s) ?_
  split
  · exact .settle (.trans (.of_sel rfl) (.enterListening _))
  · exact .refl s

theorem leaveTimerExpiry_inLine : Reaches InLine (execLeaveTimerExpiry s) s := by
  refine .act (.refl s) ?_
  dsimp only
  split
  · split
    · next t _ =>
      have moved : Unchosen s (s.at t).batch.st := .of_sel rfl
      exact .ite (fun _ => .of_view rfl) fun _ => .settle ((moved.trans (.endGroupPart _)).trans (.flush _))
    · exact .refl s
  · exact .refl s

theorem finish_inLine {b : Batch} (h : Unchosen s b.st) : InLine s b.finish :=
  .settle ((Unchosen.pursued.followGaps (Unchosen.pursued.recheck h)).trans (.flush _))

theorem visit_unchosen (k : Station) : Unchosen s (s.visit k) := .ite (.of_sel rfl) (.of_sel rfl)

theorem visitAll_unchosen (l : List Station) : Unchosen s (l.foldl State.visit s) := by
  induction l generalizing s with
  | nil => exact .refl s
  | cons k rest ih => exact (visit_unchosen s k).trans (ih _)

theorem heartbeatTick_inLine : Reaches InLine (execHeartbeatTick s) s := by
  refine .act (.refl s) ?_
  dsimp only
  split
  · next t _ =>
    have moved : Unchosen s ((s.at t).setMem { (s.at t).mem with tick := some (t + (s.at t).heartbeat) }) := .of_sel rfl
    exact finish_inLine s (b := State.batch _) (.ite (moved.trans (visitAll_unchosen _ _)) moved)
  · exact .refl s

theorem peerSilent_inLine (k : Station) : Reaches InLine (execPeerSilent k s) s :=
  .act (.refl s) (.ite (fun _ => finish_inLine s (b := State.batch _) (.of_sel rfl)) fun _ => .refl s)

theorem presenceTimerExpiry_inLine : Reaches InLine (execPresenceTimerExpiry s) s := by
  refine .act (.refl s) ?_
  dsimp only
  split
  · exact .ite (fun _ => .settle (.trans (.of_sel rfl) (.offer _))) fun _ => .refl s
  · exact .refl s

theorem quietMarkExpiry_inLine (k : Station) : Reaches InLine (execQuietMarkExpiry k s) s := by
  refine .act (.refl s) ?_
  dsimp only
  split
  · exact .settleSend (.of_sel rfl)
  · exact .refl s

theorem staleWaitEnd_inLine : Reaches InLine (execStaleWaitEnd s) s := by
  refine .act (.refl s) ?_
  split
  · split
    · exact .settleSend (.of_sel rfl)
    · exact .refl s
  · exact .refl s

theorem backoffEnd_inLine : Reaches InLine (execBackoffEnd s) s := by
  refine .act (.refl s) ?_
  split
  · split
    · exact .settleSend (.of_sel rfl)
    · exact .refl s
  · exact .refl s

theorem catchUpDeadline_inLine : Reaches InLine (execCatchUpDeadline s) s := by
  refine .act (.refl s) ?_
  split
  · next t _ =>
    have moved : Unchosen s (s.at t).batch.st := .of_sel rfl
    exact finish_inLine s (moved.trans (.timeOut _))
  · exact .refl s

theorem responderBackoffEnd_inLine : Reaches InLine (execResponderBackoffEnd s) s := by
  refine .act (.refl s) ?_
  split
  · split
    · exact .ite (fun _ => .settle (.trans (.of_sel rfl) (.offerResponse _))) fun _ => .refl s
    · exact .refl s
  · exact .refl s

theorem drainComplete_inLine : Reaches InLine (execDrainComplete s) s := by
  have ends : Unchosen s (drainEnds s).batch.st := .of_sel rfl
  exact .act (.refl s) (.ite (fun _ => finish_inLine s (ends.trans (.drained _))) fun _ => .refl s)

/-! ## Grants, reads, writes -/

theorem tryEntry_sel (e : PendEntry) : (s.tryEntry e).sel = s.sel := by
  unfold State.tryEntry
  split <;> rfl

theorem commitWriteGrant_inLine : Reaches InLine (execCommitWriteGrant s) s := by
  refine .act (.refl s) ?_
  split
  · refine .ite (fun _ => .settle (.of_sel ?_)) fun _ => .refl s
    unfold State.grantWrite
    split
    · exact (takeGrant_sel (s.tryEntry _) .writer .commitWrite none).trans (tryEntry_sel s _)
    · dsimp only
      split
      · exact giveUpGrant_sel s .writer
      · exact (tryEntry_sel _ _).trans (giveUpGrant_sel s .writer)
  · exact .refl s

theorem finishLate_sel (w : CurrentWrite) : (s.finishLate w).sel = s.sel := by
  have committed : ∀ e, (s.commitSlot e).sel = s.sel := fun e => by
    unfold State.commitSlot State.postCommitted
    repeat' split
    all_goals rfl
  unfold State.finishLate
  split
  · exact committed _
  · rfl

theorem completeLate_inLine (w : CurrentWrite) : InLine s (s.completeLate w) := by
  have ended : Unchosen s (s.endWrite w) := .of_sel rfl
  exact .settle ((ended.beside (finishLate_sel _ w)).trans (.respSettle _))

theorem finishEarly_inLine (w : CurrentWrite) : InLine s ((s.endWrite w).finishEarly w) := by
  have ended : Unchosen s (s.endWrite w) := .of_sel rfl
  unfold State.finishEarly
  split
  · dsimp only
    refine .ite (fun _ => .settle (ended.beside rfl)) fun _ => .ite (fun _ => ?_) fun _ => .settle ended
    exact finish_inLine s (b := State.batch _) (ended.beside rfl)
  · exact .settle ended

theorem commitWriteComplete_inLine : Reaches InLine (execCommitWriteComplete s) s := by
  refine .act (.refl s) ?_
  split
  · exact .ite (fun _ => .refl s) fun _ => completeLate_inLine s _
  · exact .refl s

theorem earlyWriteComplete_inLine : Reaches InLine (execEarlyWriteComplete s) s := by
  refine .act (.refl s) ?_
  split
  · exact .ite (fun _ => .refl s) fun _ => .ite (fun _ => finishEarly_inLine s _) fun _ => completeLate_inLine s _
  · exact .refl s

theorem replayReadGrant_inLine : Reaches InLine (execReplayReadGrant s) s := by
  refine .act (.refl s) ?_
  split
  · refine .ite (fun _ => .settle ?_) fun _ => .refl s
    unfold State.judgeReplay
    split
    · exact .of_sel (takeGrant_sel s _ _ _)
    · exact .of_sel (giveUpGrant_sel s .responder)
    · exact .of_sel (giveUpGrant_sel s .responder)
    · exact .trans (.of_sel (giveUpGrant_sel s .responder)) (.offerResponse _)
  · exact .refl s

theorem replayReadComplete_inLine : Reaches InLine (execReplayReadComplete s) s := by
  have free : Unchosen s s.freePort := .of_sel rfl
  refine .act (.refl s) ?_
  split
  · refine .settle ?_
    unfold State.takeReplay
    split
    · exact .ite (.ite (free.trans (.offerResponse _)) (free.beside rfl)) free
    · exact free
  · exact .refl s

theorem localReadGrant_inLine : Reaches InLine (execLocalReadGrant s) s := by
  refine .act (.refl s) ?_
  dsimp only
  split
  · exact .ite (fun _ => .settle (.ite (.of_sel rfl) (.of_sel rfl))) fun _ => .refl s
  · exact .refl s

theorem localReadComplete_inLine : Reaches InLine (execLocalReadComplete s) s := by
  refine .act (.refl s) ?_
  split
  · exact .settle (.of_sel rfl)
  · exact .refl s

/-! ## Sweeps, temperature, hold -/

theorem sweepSliceGrant_inLine : Reaches InLine (execSweepSliceGrant s) s :=
  .act (.refl s) (.ite (fun _ => .settle (.of_sel rfl)) fun _ => .refl s)

theorem sweepSliceComplete_inLine : Reaches InLine (execSweepSliceComplete s) s :=
  .act (.refl s) (.ite (fun _ => .settle (.of_sel rfl)) fun _ => .refl s)

theorem intervalTimerExpiry_inLine : Reaches InLine (execIntervalTimerExpiry s) s := by
  refine .act (.refl s) ?_
  dsimp only
  split
  · exact .settle (.of_sel rfl)
  · exact .refl s

theorem pullIn_inLine : Reaches InLine (execPullIn s) s := by
  refine .act (.refl s) ?_
  split
  · exact .ite (fun _ => .settle (.of_sel rfl)) fun _ => .refl s
  · exact .refl s

theorem portQuietPullIn_inLine : Reaches InLine (execPortQuietPullIn s) s := by
  refine .act (.refl s) ?_
  split
  · exact .ite (fun _ => .settle (.of_sel rfl)) fun _ => .refl s
  · exact .refl s

theorem temperatureEvaluation_inLine (c : Int) : Reaches InLine (execTemperatureEvaluation c s) s := by
  refine .act (.refl s) ?_
  split
  · refine .of_view ?_
    unfold State.evaluate State.changeClass
    dsimp only
    repeat' split
    all_goals rfl
  · exact .refl s

theorem holdTimerExpiry_inLine : Reaches InLine (execHoldTimerExpiry s) s := by
  refine .act (.refl s) ?_
  dsimp only
  split
  · exact .ite (fun _ => .of_view rfl) fun _ => .of_view rfl
  · exact .refl s

theorem internalPassGrant_inLine : Reaches InLine (execInternalPassGrant s) s :=
  .act (.refl s) (.ite (fun _ => .of_view rfl) fun _ => .refl s)

theorem internalPassComplete_inLine : Reaches InLine (execInternalPassComplete s) s :=
  .act (.refl s) (.ite (fun _ => .of_view rfl) fun _ => .refl s)

theorem exitPassGrant_inLine : Reaches InLine (execExitPassGrant s) s :=
  .act (.refl s) (.ite (fun _ => .of_view rfl) fun _ => .refl s)

theorem exitPassComplete_inLine : Reaches InLine (execExitPassComplete s) s :=
  .act (.refl s) (.ite (fun _ => .settle (.trans (.of_sel rfl) (.enterListening _))) fun _ => .refl s)

/-! ## Reset -/

/-- R81, R95: after a hardware reset the queue is empty, nothing is offered and the bus interface is off. -/
theorem hardwareReset_inLine : InLine s s.hardwareReset :=
  ⟨fun _ => (rfl : State.reset.sel.record = false), fun _ idle => (RxState.noConfusion idle : _),
    fun _ choice => absurd (show (none : Option Sender) = some _ from choice) (by simp)⟩

theorem resetRelease_inLine (a : StationPins) (b : RatePins) (c : SlicePins) :
    Reaches InLine (execResetRelease a b c s) s :=
  ⟨_, rfl, .ite (fun _ => .of_view rfl) fun _ => .refl s⟩

/-! ## Every step -/

theorem exec_inLine (c : Instr) : Reaches InLine (exec c s) s := by
  cases c with
  | hardwareReset => exact ⟨_, rfl, hardwareReset_inLine s⟩
  | resetRelease a b c => exact resetRelease_inLine s a b c
  | start a b c d e f => exact start_inLine s a b c d e f
  | join => exact join_inLine s
  | submit p => exact submit_inLine s p
  | read g => exact read_inLine s g
  | status => exact .inLine s fun s => answer_inLine s _
  | peers => exact .inLine s fun s => answer_inLine s _
  | notice => exact notice_inLine s
  | leave => exact .inLine s fun s => departure_inLine s _ (takeLeave_unchosen s)
  | hold => exact .inLine s fun s => departure_inLine s _ (takeHold_unchosen s)
  | release => exact release_inLine s
  | malformedCommand o p => exact .inLine s fun s => answer_inLine s _
  | collect n => exact collect_inLine s n
  | deferredCommandTaken => exact deferredCommandTaken_inLine s
  | syncWaitEnd => exact syncWaitEnd_inLine s
  | frameStart => exact frameStart_inLine s
  | ownFrameStart => exact ownFrameStart_inLine s
  | arbitrationLost => exact arbitrationLost_inLine s
  | readbackFailure => exact readbackFailure_inLine s
  | duplicateStation => exact duplicateStation_inLine s
  | frameEnd b l => exact frameEnd_inLine s b l
  | frameTruncated b l => exact frameTruncated_inLine s b l
  | windowOpen => exact windowOpen_inLine s
  | objectionPullEnd => exact objectionPullEnd_inLine s
  | windowEnd n => exact windowEnd_inLine s n
  | separationEnd => exact separationEnd_inLine s
  | dataLineFault => exact dataLineFault_inLine s
  | faultWaitEnd => exact faultWaitEnd_inLine s
  | objectionLineFault => exact .act (.refl s) (.ite (fun _ => objectionFault_inLine s) fun _ => .refl s)
  | objectionLineRecovery => exact .act (.refl s) (.ite (fun _ => .of_view rfl) fun _ => .refl s)
  | listenTimerExpiry => exact listenTimerExpiry_inLine s
  | joinWaitExpiry => exact joinWaitExpiry_inLine s
  | leaveTimerExpiry => exact leaveTimerExpiry_inLine s
  | heartbeatTick => exact heartbeatTick_inLine s
  | peerSilent k => exact peerSilent_inLine s k
  | presenceTimerExpiry => exact presenceTimerExpiry_inLine s
  | quietMarkExpiry k => exact quietMarkExpiry_inLine s k
  | staleWaitEnd => exact staleWaitEnd_inLine s
  | backoffEnd => exact backoffEnd_inLine s
  | catchUpDeadline => exact catchUpDeadline_inLine s
  | responderBackoffEnd => exact responderBackoffEnd_inLine s
  | drainComplete => exact drainComplete_inLine s
  | commitWriteGrant => exact commitWriteGrant_inLine s
  | commitWriteComplete => exact commitWriteComplete_inLine s
  | earlyWriteComplete => exact earlyWriteComplete_inLine s
  | replayReadGrant => exact replayReadGrant_inLine s
  | replayReadComplete => exact replayReadComplete_inLine s
  | localReadGrant => exact localReadGrant_inLine s
  | localReadComplete => exact localReadComplete_inLine s
  | sweepSliceGrant => exact sweepSliceGrant_inLine s
  | sweepSliceComplete => exact sweepSliceComplete_inLine s
  | intervalTimerExpiry => exact intervalTimerExpiry_inLine s
  | pullIn => exact pullIn_inLine s
  | portQuietPullIn => exact portQuietPullIn_inLine s
  | temperatureEvaluation z => exact temperatureEvaluation_inLine s z
  | holdTimerExpiry => exact holdTimerExpiry_inLine s
  | internalPassGrant => exact internalPassGrant_inLine s
  | internalPassComplete => exact internalPassComplete_inLine s
  | exitPassGrant => exact exitPassGrant_inLine s
  | exitPassComplete => exact exitPassComplete_inLine s

theorem step_inLine {s t : State} (h : step s = .next t) : InLine s t := by
  unfold step at h
  split at h
  · cases h
    exact .ite (fun _ => .refl s) fun _ => .of_view rfl
  · next c rest _ =>
    obtain ⟨u, next, line⟩ := exec_inLine (s.setPending rest) c
    obtain rfl : t = u := Host.Outcome.next.inj (h.symm.trans next)
    exact line.from_view rfl

/-- Settles O57, by `step_inLine`: an event makes no choice by itself, and what follows by itself at its end picks the first
allowed offer. -/
theorem stepsKeepTheHeadInLine : Obligations.StepsKeepTheHeadInLine := by
  intro s t h
  have line := step_inLine h
  refine ⟨fun head => ⟨line.head head, ?_⟩, line.made, line.first⟩
  obtain ⟨waiting, contending, record⟩ := headFollows_spec (line.head head)
  dsimp only
  rw [← mayStartRecord_iff]
  exact ⟨fun e rest k w => by simp [waiting e rest k w], contending, record⟩

end Sys2Proof.Proofs
end

section
/-! SUBMIT (R83): its tests in their order, and the entry that is appended. -/

namespace Sys2Proof.Proofs

open Sys2Proof Sys2Proof.Machine

variable {s : State} {payload : List Byte} {n : Nat}

/-- R83: an accepted SUBMIT, before the head and the choice follow. -/
def submitted (s : State) (payload : List Byte) : State :=
  (s.setOut { s.out with
    entries := s.out.entries ++ [newEntry s.out.tagCounter payload], tagCounter := nextTag s.out.tagCounter }).answer
    (.okTag s.out.tagCounter)

/-- R83: the tests of SUBMIT. -/
theorem takeSubmit_eq (s : State) (payload : List Byte) : s.takeSubmit payload =
    if (s.mem.st ≠ .syncing ∧ s.mem.st ≠ .member) ∨ s.dir.frontier ≥ 2 ^ 48 then s.answer (.refusedState .submit)
    else if payload.length = 0 ∨ 240 < payload.length then s.answer (.param 3)
    else if 8 ≤ s.out.entries.length then s.answer .full
    else (submitted s payload).settleSend := by
  unfold State.takeSubmit
  simp only [inGroup_false]
  rfl

theorem submitted_shiftOut (t : State) (follows : Follows (submitted (s.shiftOut [] n) payload) t) :
    submitted (s.shiftOut [] n) payload = { s with
      freeCount := t.freeCount
      out := { s.out with
        entries := s.out.entries ++ [{ tag := s.out.tagCounter, payload := payload, contentRetries := 0, busyRetries := 0,
                                       staleCount := 0, state := .waiting }]
        tagCounter := if s.out.tagCounter = 65535 then 1 else s.out.tagCounter + 1 }
      port := { s.port with
        phase := .ready, slot := none, response := some (.okTag s.out.tagCounter), sdo := t.port.sdo } } := by
  rw [show t.freeCount = _ from congrArg State.freeCount follows.same,
    show t.port = _ from congrArg State.port follows.same]
  rfl

/-- Settles O10, test by test; an accepted SUBMIT ends in what follows by itself for the head. -/
theorem submitTestsAndAppends : Obligations.SubmitTestsAndAppends := by
  intro payload s released idle
  refine ⟨_, act_transaction released idle, ?_⟩
  rw [takeSubmit_eq, shiftOut_mem, shiftOut_dir, shiftOut_out]
  by_cases refused : (s.mem.st ≠ .syncing ∧ s.mem.st ≠ .member) ∨ s.dir.frontier ≥ 2 ^ 48
  · simp only [if_pos refused]
    exact answersOnly_answer
  by_cases illegal : payload.length = 0 ∨ 240 < payload.length
  · simp only [if_neg refused, if_pos illegal]
    exact answersOnly_answer
  by_cases full : 8 ≤ s.out.entries.length
  · simp only [if_neg refused, if_neg illegal, if_pos full]
    exact answersOnly_answer
  simp only [if_neg refused, if_neg illegal, if_neg full]
  have follows := Follows.settleSend (submitted (s.shiftOut [] (1 + payload.length)) payload)
  exact ⟨submitted_shiftOut _ follows ▸ follows, headFollows_settleSend _⟩

end Sys2Proof.Proofs
end

section
/-! The end of a judged window (R59, R98): an own frame's result or the handover of a peer's frame, what that leaves to be done, and
what the end of the event leaves alone. -/

namespace Sys2Proof.Proofs

open Sys2Proof Sys2Proof.Machine

variable {s : State} {b : Batch} {w : WindowRun} {rest : List WindowRun} {lowRun n : Nat} {cls : Observed}

/-! ## The observed class (R37) -/

theorem observedOf_eq_none : observedOf n = .none ↔ n = 0 := by
  refine ⟨fun h => ?_, fun h => by rw [h]; rfl⟩
  by_contra pos
  exact observedOf_ne_none (Nat.pos_of_ne_zero pos) h

theorem observedOf_eq_content : observedOf n = .content ↔ 1 ≤ n ∧ n ≤ 8 := by
  unfold observedOf
  repeat' split
  all_goals simp; try omega

theorem observedOf_eq_stale : observedOf n = .stale ↔ 9 ≤ n ∧ n ≤ 18 := by
  unfold observedOf
  repeat' split
  all_goals simp; try omega

/-- R37: OVERRUN is passed on as FULL. -/
theorem observedOf_isFull : (observedOf n).isFull = true ↔ 18 < n := by
  unfold observedOf
  repeat' split
  all_goals simp [Observed.isFull]; try omega

/-- An own frame stands where nobody objects and no readback failure is marked. -/
theorem stands_iff : (decide (w.observed lowRun = .none) && !w.readback) = ownStands w lowRun := by
  have run : w.observed lowRun = .none ↔ lowRun = 0 ∧ w.pulled = 0 := by
    rw [WindowRun.observed, observedOf_eq_none]
    omega
  rw [Bool.eq_iff_iff]
  simp only [ownStands, run, Bool.and_eq_true, decide_eq_true_eq, beq_iff_eq]
  tauto

/-! ## The outcome -/

theorem applyOutcome_budget (s : State) (x : Bool) : (s.applyOutcome x).st.conf.budget = s.conf.budget := by
  have journal : ∀ (u : State) (c : JournalChange), (u.journal c).conf = u.conf := fun u c => by
    rw [State.journal, postAll_eq]
    rfl
  have committed : ∀ (u : State) (e : PendEntry), (u.postCommitted e).conf = u.conf := fun u e => by
    unfold State.postCommitted
    split <;> rfl
  have confirmed : ∀ e, (s.confirmed e).st.conf.budget = s.conf.budget := fun e => by
    unfold State.confirmed
    dsimp only
    split
    · split
      · dsimp only
        rw [committed, journal]
        rfl
      · split <;> rfl
    · split
      · dsimp only
        rw [journal]
        rfl
      · split <;> rfl
  unfold State.applyOutcome
  dsimp only
  split
  · rfl
  · split
    · exact confirmed _
    · rfl

theorem nextBudget_le (n : Nat) (d : Decision) (c : Observed) : nextBudget n d c ≤ n + 1 := by
  unfold nextBudget
  split
  · omega
  · omega
  · omega
  · split <;> omega
  · split <;> omega

/-- R74: one window adds one to the objection budget at most. -/
theorem outcome_budget (h : s.conf.budget ≤ 14) : (outcome s cls).conf.budget < 16 := by
  have kept := applyOutcome_budget (s.setFilter { s.filter with window := none }) (decide (cls = .none))
  unfold outcome
  generalize ((s.setFilter { s.filter with window := none }).applyOutcome (decide (cls = .none))).st = u at kept ⊢
  have same : u.conf.budget = s.conf.budget := kept
  unfold State.countBudget
  split
  · omega
  · next d _ =>
    have := nextBudget_le u.conf.budget d.decision cls
    dsimp only [setConf_conf]
    split <;> omega

/-- What the outcome leaves alone. -/
theorem outcome_beside (s : State) (cls : Observed) : let v := outcome s cls
    v.out = s.out ∧ v.cat = s.cat ∧ v.sel = s.sel ∧ v.mem = s.mem ∧ v.now = s.now ∧ v.straps = s.straps ∧
    v.params = s.params := by
  dsimp only
  rw [outcome_eq]
  exact ⟨rfl, rfl, rfl, rfl, rfl, rfl, rfl⟩

/-- Where no decision has been made, the outcome is none and no budget counted. -/
theorem outcome_undecided (none : s.conf.decision = none) :
    outcome s cls = s.setFilter { s.filter with window := .none } := by
  have outcome' : ∀ x, (s.setFilter { s.filter with window := .none }).applyOutcome x =
      { st := s.setFilter { s.filter with window := .none }, retired := [], filled := false } := fun x => by
    unfold State.applyOutcome
    simp [none]
  unfold outcome State.countBudget
  rw [outcome']
  simp [none]

/-- An own frame's window: the result is delivered, then the unit's work is done. -/
theorem closed_own (judged : w.overlapping = false) (own : w.own = true) (budget : s.conf.budget ≤ 14) : closed s w cls =
    (((outcome s cls).batch.deliver cls w.readback).on fun u => u.applyRetired
      ((s.setFilter { s.filter with window := none }).applyOutcome (decide (cls = .none))).retired).afterOutcome
      s.dir.frontier := by
  have limit := outcome_budget (cls := cls) budget
  rw [closed, judged, if_neg (by decide), closeJudged_eq]
  dsimp only
  rw [if_neg fun c => absurd c.2 (Nat.not_le.2 limit), if_pos own]

/-- A peer's frame's window: a frame to which nobody objects is handed over, then the unit's work is done. -/
theorem closed_peer (judged : w.overlapping = false) (peer : w.own = false) (budget : s.conf.budget ≤ 14) :
    closed s w cls =
    (if cls = .none then (outcome s cls).batch.handOn s.filter.window
        ((s.setFilter { s.filter with window := none }).applyOutcome (decide (cls = .none))).filled
        ((s.setFilter { s.filter with window := none }).applyOutcome (decide (cls = .none))).retired
      else (outcome s cls).batch).afterOutcome s.dir.frontier := by
  have limit := outcome_budget (cls := cls) budget
  rw [closed, judged, if_neg (by decide), closeJudged_eq]
  dsimp only
  rw [if_neg fun c => absurd c.2 (Nat.not_le.2 limit), if_neg (by simp [peer])]

theorem exec_windowEnds (h : windowEnds s w) : ∃ rest, exec (.windowEnd lowRun) s =
    .next (closed (closing s w rest lowRun) w (w.observed lowRun)).flush.finishSwitch.settle := by
  obtain ⟨released, head, opened, _⟩ := h
  obtain ⟨rest, windows⟩ := List.head?_eq_some_iff.1 head
  exact ⟨rest, exec_windowEnd released windows opened⟩

/-- What a closing window leaves alone beside what `closing_spec` says. -/
theorem closing_beside (s : State) (w : WindowRun) (rest : List WindowRun) (lowRun : Nat) : let u := closing s w rest lowRun
    u.out = s.out ∧ u.cat = s.cat ∧ u.straps = s.straps ∧ u.params = s.params ∧
    u.mem = { s.mem with departWait := s.mem.departWait - 1, faultFlag := u.mem.faultFlag } := by
  dsimp only
  rw [closing_eq, afterClosing_eq]
  exact ⟨rfl, rfl, rfl, rfl, rfl⟩

theorem grounded_of_onLine {bus : Bus} {filter : Filter} (line : onLine s = (bus, filter, false)) : s.sel.inFlight = none := by
  simp only [onLine, Prod.mk.injEq, Option.isSome_eq_false_iff, Option.isNone_iff_eq_none] at line
  exact line.2.2

/-! ## The end of the event -/

theorem finishSwitch_eq (s : State) : s.finishSwitch = { s with
    bus := s.finishSwitch.bus
    filter := s.finishSwitch.filter
    conf := { s.conf with decision := s.finishSwitch.conf.decision }
    mem := { s.mem with tick := s.finishSwitch.mem.tick }
    swp := s.finishSwitch.swp } := by
  unfold State.finishSwitch
  split
  · split
    · rfl
    · rw [retune_eq]
  · rfl

/-- From `u` to `t` the notices owed have been posted, a switching that waited has been made, and what follows by itself has
followed. -/
structure Ends (u t : State) : Prop where
  now : t.now = u.now
  dir : t.dir = u.dir
  cat : t.cat = u.cat
  mem : t.mem = { u.mem with tick := t.mem.tick }
  drain : t.conf.drain = u.conf.drain
  queue : t.out.entries.map OutEntry.atRest = u.out.entries.map OutEntry.atRest
  inFlight : t.sel.inFlight = u.sel.inFlight
  responseOffer : t.sel.responder = u.sel.responder
  memberOffer : u.sel.offersPresence = false → t.sel.membership = u.sel.membership

namespace Ends

variable {t u : State}

theorem trans (h : Ends s t) (k : Ends t u) : Ends s u where
  now := k.now.trans h.now
  dir := k.dir.trans h.dir
  cat := k.cat.trans h.cat
  mem := by
    rw [k.mem, h.mem]
  drain := k.drain.trans h.drain
  queue := k.queue.trans h.queue
  inFlight := k.inFlight.trans h.inFlight
  responseOffer := k.responseOffer.trans h.responseOffer
  memberOffer plain := by
    have same := h.memberOffer plain
    exact (k.memberOffer (by rwa [Selector.offersPresence, same])).trans same

theorem follows (h : Follows s t) : Ends s t where
  now := by rw [h.same]
  dir := by rw [h.same]
  cat := by rw [h.same]
  mem := by rw [h.same]
  drain := by rw [h.same]
  queue := h.queue
  inFlight := h.inFlight
  responseOffer := h.responseOffer
  memberOffer := h.memberOffer

theorem finishSwitch (s : State) : Ends s s.finishSwitch := by
  rw [finishSwitch_eq]
  exact ⟨rfl, rfl, rfl, rfl, rfl, rfl, rfl, rfl, fun _ => rfl⟩

theorem postAll (s : State) (l : List Notice) : Ends s (s.postAll l) := by
  rw [postAll_eq]
  exact ⟨rfl, rfl, rfl, rfl, rfl, rfl, rfl, rfl, fun _ => rfl⟩

theorem entries_nil (h : Ends s t) (empty : s.out.entries = []) : t.out.entries = [] := by
  have queue := h.queue
  rw [empty] at queue
  exact List.map_eq_nil_iff.1 queue

end Ends

/-- The end of a window's event. -/
theorem ends (b : Batch) : Ends b.st b.flush.finishSwitch.settle :=
  ((Ends.postAll b.st _).trans (.finishSwitch b.flush)).trans (.follows (.settle _))

end Sys2Proof.Proofs
end

section
/-! The end of LEAVING's group part (R94, R117): at the leave timer's expiry, or with the LEAVE's result. -/

namespace Sys2Proof.Proofs

open Sys2Proof Sys2Proof.Machine

variable {s : State} {b : Batch} {l : LeaveRecord} {cls : Observed}

/-! ## The queue at a departure (R94) -/

/-- R94: with no RECORD of its own in flight the station drops the whole queue at once. -/
theorem departQueue_dropped (grounded : s.sel.flies .outbound = false) : s.departQueue = s.dropAll .departed := by
  unfold State.departQueue
  split
  · split
    · rw [if_neg (by simp [grounded])]
    · rfl
  · rfl

theorem dropAll_out (s : State) (r : DropReason) : (s.dropAll r).out = { s.out with entries := [], departing := false } := by
  rw [dropAll_eq]
  rfl

/-- R179: while there is room for all, the notices posted stand behind those before them. -/
theorem notices_postAll_of_room (l : List Notice) (s : State) (room : s.port.notices.length + l.length ≤ 32) :
    (s.postAll l).port.notices = s.port.notices ++ l := by
  induction l generalizing s with
  | nil => exact (List.append_nil _).symm
  | cons n rest ih =>
    rw [List.length_cons] at room
    have posted : (s.post n).port.notices = s.port.notices ++ [n] := by
      simp [State.post, LocalPort.post, show s.port.notices.length < Config.noticeMax from (by omega : _ < 32)]
    have tail := ih (s.post n) (by rw [posted, List.length_append, List.length_singleton]; omega)
    show ((s.post n).postAll rest).port.notices = _
    rw [tail, posted, List.append_assoc]
    rfl

theorem dropAll_notices (r : DropReason) (room : s.port.notices.length + s.out.entries.length ≤ 32) :
    (s.dropAll r).port.notices = s.port.notices ++ s.out.entries.map fun x => .dropped x.tag r :=
  notices_postAll_of_room _ ((s.unoffer .outbound).setOut { s.out with entries := [], departing := false })
    (by rwa [List.length_map])

/-! ## The end of the group part (R117) -/

/-- From `s` to `t` LEAVING's group part has ended. -/
structure GroupPartEnds (s t : State) : Prop where
  line : onLine t = onLine s
  mem : t.mem = { s.mem with
    leave := s.mem.leave.map fun l => { l with timer := none, expired := false }, peers := Vector.replicate 16 Peer.reset }
  drain : t.conf.drain = true
  cat : t.cat = { requester := none, responder := none }
  offer : t.sel.membership = none
  window : t.dir.window = s.dir.window
  frontier : t.dir.frontier = s.dir.frontier
  queue : s.sel.flies .outbound = false → t.out.entries = []
  dropped : s.sel.flies .outbound = false → s.port.notices.length + s.out.entries.length ≤ 32 →
    s.port.notices ++ s.out.entries.map (fun x => .dropped x.tag .departed) <+: t.port.notices

theorem requestDrain_out : s.resetPeers.requestDrain.out = s.out := rfl

theorem leaveGroup_out (b : Batch) : (leaveGroup b).st.out = (b.st.unoffer .membership).departQueue.out := by
  rw [leaveGroup, on_st, requestDrain_out, clearContexts_cat.2]
  rfl

theorem leaveGroup_works (b : Batch) : Internal (b.st.unoffer .membership).departQueue (leaveGroup b).st :=
  .requestDrain (.resetPeers (.clearContexts (b := b.on fun s => (s.unoffer .membership).departQueue) (.refl _)))

theorem endGroupPart_ends (b : Batch) : GroupPartEnds b.st b.endGroupPart.st := by
  rw [endGroupPart_eq]
  have left := leavesGroup (b.on fun s =>
    s.setMem { s.mem with leave := s.mem.leave.map fun l => { l with timer := none, expired := false } })
  have out := leaveGroup_out (b.on fun s =>
    s.setMem { s.mem with leave := s.mem.leave.map fun l => { l with timer := none, expired := false } })
  have works := leaveGroup_works (b.on fun s =>
    s.setMem { s.mem with leave := s.mem.leave.map fun l => { l with timer := none, expired := false } })
  refine {
    line := left.line
    mem := left.mem
    drain := by rw [left.conf]
    cat := left.cat
    offer := left.offer
    window := ?_
    frontier := ?_
    queue := fun grounded => ?_
    dropped := fun grounded room => ?_ }
  · rw [left.dir]
    exact foldl_keeps _ Directory.window (fun _ _ => rollBack_window _ _) _ _
  · rw [left.dir]
    exact foldl_keeps _ Directory.frontier (fun _ _ => rollBack_frontier _ _) _ _
  · rw [out, departQueue_dropped (by exact grounded), dropAll_out]
  · have notices := works.notices
    rwa [departQueue_dropped (by exact grounded), dropAll_notices _ (by exact room)] at notices

/-- R117: the leave timer's expiry, with no LEAVE in flight. -/
theorem exec_leaveTimerExpiry {e : Nat} (released : s.resetHeld = false) (st : s.mem.st = .leaving)
    (leave : s.mem.leave = some l) (timer : l.timer = some e) (grounded : s.leaveFlies = false) :
    exec .leaveTimerExpiry s = .next (s.at e).batch.endGroupPart.flush.settle := by
  show execLeaveTimerExpiry s = _
  rw [execLeaveTimerExpiry, act_released released, st, leave]
  simp only [timer]
  rw [if_neg (by simp [show (s.at e).leaveFlies = false from grounded])]

/-- R117: while the LEAVE is in flight its result is waited for. -/
theorem exec_leaveTimerExpiry_flying {e : Nat} (released : s.resetHeld = false) (st : s.mem.st = .leaving)
    (leave : s.mem.leave = some l) (timer : l.timer = some e) (flying : s.leaveFlies = true) :
    exec .leaveTimerExpiry s = .next { s with
      now := max s.now e, mem := { s.mem with leave := some { l with timer := none, expired := true } } } := by
  show execLeaveTimerExpiry s = _
  rw [execLeaveTimerExpiry, act_released released, st, leave]
  simp only [timer]
  rw [if_pos (by exact flying)]
  rfl

theorem flies_of_other {f : InFlight} {who : Sender} (flying : s.sel.inFlight = some f) (other : f.sender ≠ who) :
    s.sel.flies who = false := by
  simp [Selector.flies, flying, other]

/-! ## The LEAVE's result (R117) -/

/-- The LEAVE has been voided once more. -/
def leaveVoided (b : Batch) (l : LeaveRecord) : Batch :=
  b.on fun s => s.setMem { s.mem with leave := some { l with voided := l.voided + 1 } }

/-- R117: the result of the LEAVE while the group part lasts. -/
theorem leaveResult_eq (st : b.st.mem.st = .leaving) (leave : b.st.mem.leave = some l) (drain : b.st.conf.drain = false)
    (stands : Bool) : b.leaveResult stands = if stands then b.endGroupPart
      else if l.expired = true ∨ 3 ≤ l.voided + 1 then (leaveVoided b l).endGroupPart
      else (leaveVoided b l).on fun s => s.offer .membership (.leave l.reason) := by
  unfold Batch.leaveResult
  rw [leave]
  dsimp only
  rw [if_neg (by simp [st, drain])]
  rfl

/-- R98: the LEAVE's result reaches the membership unit; outside the group no presence timer restarts. -/
theorem deliver_leave {r : LeaveReason} {x : Bool} (outside : b.st.inGroup = false)
    (flying : b.st.sel.inFlight = some { sender := .membership, body := .leave r, discard := false }) :
    b.deliver cls x = (b.on fun s => s.setSel { s.sel with inFlight := none }).leaveResult (decide (cls = .none) && !x) := by
  have landed : (b.on fun s => s.setSel { s.sel with inFlight := none }).on State.ownConfirmed =
      b.on fun s => s.setSel { s.sel with inFlight := none } := by
    have still : (b.st.setSel { b.st.sel with inFlight := none }).ownConfirmed = b.st.setSel { b.st.sel with inFlight := none } :=
      if_neg (by simp [show (b.st.setSel { b.st.sel with inFlight := none }).inGroup = false from outside])
    rw [on_on]
    exact congrArg (fun u => { b with st := u }) still
  unfold Batch.deliver
  rw [flying]
  dsimp only
  rw [landed, ite_self]
  rfl

/-! ## What is left to be done outside the group -/

theorem respSettle_outside (outside : s.inGroup = false) : s.respSettle = s := by
  unfold State.respSettle
  split
  · split
    · split
      · rfl
      · rfl
      · unfold State.respDecide
        rw [outside]
        rfl
    · rfl
  · rfl

/-- Outside the group nothing is left to be done after a window but what concerns the outbound queue. -/
theorem afterOutcome_outside (outside : b.st.inGroup = false) (n : Nat) :
    b.afterOutcome n = b.on fun s => (if n < s.dir.frontier then s.endStaleWait else s).spendNumbers := by
  have still : beside ((if n < b.st.dir.frontier then b.st.endStaleWait else b.st).spendNumbers) = beside b.st := by
    rw [beside_spendNumbers]
    split
    · exact beside_endStaleWait
    · rfl
  unfold Batch.afterOutcome
  dsimp only
  rw [recheck_outside outside, followGaps_outside]
  · rw [Batch.on, Batch.on, respSettle_outside outside]
  · rw [on_st, respSettle_outside outside, (abides_of_beside still).group, outside]

theorem beside_applyRetired {r : List Nat} : beside (s.applyRetired r) = beside s := by
  unfold State.applyRetired
  split <;> rfl

/-- What the outbound queue has left to be done stands beside all else. -/
theorem beside_afterOutcome_outside (outside : b.st.inGroup = false) (n : Nat) :
    beside (b.afterOutcome n).st = beside b.st := by
  rw [afterOutcome_outside outside, on_st, beside_spendNumbers]
  split
  · exact beside_endStaleWait
  · rfl

/-- With the queue empty nothing is left. -/
theorem afterOutcome_done (outside : b.st.inGroup = false) (empty : b.st.out.entries = []) (n : Nat) :
    b.afterOutcome n = b := by
  have woken : (if n < b.st.dir.frontier then b.st.endStaleWait else b.st) = b.st := by
    unfold State.endStaleWait
    rw [empty]
    exact ite_self _
  rw [afterOutcome_outside outside, Batch.on, woken, State.spendNumbers, if_pos (.inr empty)]

theorem applyRetired_of_none {r : List Nat} (none : s.cat.requester = none) : s.applyRetired r = s := by
  unfold State.applyRetired
  rw [none]

/-- R117: a group part that has ended at a window's end stays as it is to the end of the event. -/
theorem endGroupPart_stays {r : List Nat} {n : Nat} (outside : b.st.inGroup = false) (grounded : b.st.sel.inFlight = none) :
    (b.endGroupPart.on fun u => u.applyRetired r).afterOutcome n = b.endGroupPart := by
  have ended := endGroupPart_ends b
  have still : (b.endGroupPart.on fun u => u.applyRetired r) = b.endGroupPart := by
    rw [Batch.on, applyRetired_of_none (by rw [ended.cat])]
  rw [still, afterOutcome_done]
  · rw [Abides.inGroup_congr endGroupPart_st, outside]
  · exact ended.queue (by simp [Selector.flies, grounded])

/-! ## The statement -/

/-- R117: where the group part ends at the end of the LEAVE's window. -/
theorem GroupPartEnds.at_windowEnd {u v t : State} (h : GroupPartEnds u v) (k : Ends v t) (leave : u.mem.leave = some l)
    (grounded : u.sel.inFlight = none) :
    t.mem.leave = some { l with timer := none, expired := false } ∧ t.sel.membership = none ∧ t.out.entries = [] ∧
    t.cat = { requester := none, responder := none } ∧ (∀ j, t.mem.peer j = Peer.reset) ∧ t.conf.drain = true := by
  refine ⟨?_, ?_, k.entries_nil (h.queue (by simp [Selector.flies, grounded])), k.cat.trans h.cat, fun j => ?_, k.drain.trans h.drain⟩
  · rw [k.mem, h.mem, leave]
    rfl
  · exact (k.memberOffer (by simp [Selector.offersPresence, h.offer])).trans h.offer
  · rw [k.mem, h.mem]
    simp [Membership.peer]

/-- R117: the leave timer's expiry where no LEAVE and no RECORD is in flight. -/
theorem groupPart_ends_at_expiry {u t : State} (h : GroupPartEnds u b.st) (k : t = b.flush.settle) (st : u.mem.st = .leaving)
    (leave : u.mem.leave = some l) (free : u.sel.flies .outbound = false) : t.mem.st = .leaving ∧
      t.mem.leave = some { l with timer := none, expired := false } ∧ t.sel.membership = none ∧ t.out.entries = [] ∧
      t.cat = { requester := none, responder := none } ∧ (∀ j, t.mem.peer j = Peer.reset) ∧ t.conf.drain = true ∧
      (u.port.notices.length + u.out.entries.length ≤ 32 →
        u.port.notices ++ u.out.entries.map (fun x => .dropped x.tag .departed) <+: t.port.notices) ∧
      t.bus = u.bus ∧ t.dir.window = u.dir.window ∧ t.dir.frontier = u.dir.frontier := by
  obtain ⟨bus, _, mem, cat, conf, dir⟩ := flush_settle_beside b
  obtain ⟨sel, out⟩ := flush_sel b
  have works : Internal b.st b.flush.settle := (Internal.refl b.st).flush.settle
  subst k
  refine ⟨by rw [mem, h.mem, st], by rw [mem, h.mem, leave]; rfl, settle_membership_none (by rw [sel, h.offer]),
    settle_entries_nil (by rw [out, h.queue free]), cat.trans h.cat, fun j => by rw [mem, h.mem]; simp [Membership.peer],
    by rw [conf, h.drain], fun room => (h.dropped free room).trans works.notices, ?_, by rw [dir, h.window],
    by rw [dir, h.frontier]⟩
  rw [bus]
  exact congrArg Prod.fst h.line

/-- What the LEAVE's result has made of the station by the end of the event. -/
def LeaveSettled (l : LeaveRecord) (stands : Bool) (d : State) : Prop :=
  if stands = true then ∃ u : State, GroupPartEnds u d ∧ u.mem.leave = some l ∧ u.sel.inFlight = none
  else if l.expired = true ∨ 3 ≤ l.voided + 1 then
    ∃ u : State, GroupPartEnds u d ∧ u.mem.leave = some { l with voided := l.voided + 1 } ∧ u.sel.inFlight = none
  else d.mem.leave = some { l with voided := l.voided + 1 } ∧ d.sel.membership = some (.leave l.reason) ∧ d.conf.drain = false

theorem leaveResult_settles {stands : Bool} {r : List Nat} {n : Nat} {d : Batch} (st : b.st.mem.st = .leaving)
    (leave : b.st.mem.leave = some l) (drain : b.st.conf.drain = false) (grounded : b.st.sel.inFlight = none)
    (h : d = ((b.leaveResult stands).on fun u => u.applyRetired r).afterOutcome n) :
    d.st.mem.st = .leaving ∧ d.st.dir.window = b.st.dir.window ∧ d.st.dir.frontier = b.st.dir.frontier ∧
      LeaveSettled l stands d.st := by
  have outside : b.st.inGroup = false := by simp [State.inGroup, st]
  have ended : ∀ c : Batch, c.st.mem.st = .leaving → c.st.dir = b.st.dir →
      c.endGroupPart.st.mem.st = .leaving ∧ c.endGroupPart.st.dir.window = b.st.dir.window ∧
      c.endGroupPart.st.dir.frontier = b.st.dir.frontier := fun c st dir => by
    have part := endGroupPart_ends c
    rw [← dir]
    exact ⟨endGroupPart_st.trans st, part.window, part.frontier⟩
  rw [leaveResult_eq st leave drain] at h
  unfold LeaveSettled
  cases stands with
  | true =>
    rw [if_pos rfl, endGroupPart_stays outside grounded] at h
    obtain ⟨st', window, frontier⟩ := ended b st rfl
    subst h
    exact ⟨st', window, frontier, _, endGroupPart_ends b, leave, grounded⟩
  | false =>
    rw [if_neg Bool.false_ne_true] at h ⊢
    by_cases limit : l.expired = true ∨ 3 ≤ l.voided + 1
    · rw [if_pos limit, endGroupPart_stays (b := leaveVoided b l) outside grounded] at h
      rw [if_pos limit]
      obtain ⟨st', window, frontier⟩ := ended (leaveVoided b l) st rfl
      subst h
      exact ⟨st', window, frontier, _, endGroupPart_ends _, rfl, grounded⟩
    · rw [if_neg limit] at h ⊢
      have same := beside_applyRetired (s := (leaveVoided b l).st.offer .membership (.leave l.reason)) (r := r)
      have stays := (beside_afterOutcome_outside (b := ((leaveVoided b l).on fun s =>
        s.offer .membership (.leave l.reason)).on fun u => u.applyRetired r) ((abides_of_beside same).group.trans outside) n).trans
        same
      rw [← h] at stays
      obtain ⟨_, mem, conf, dir, offer⟩ := beside_iff.1 stays
      exact ⟨by rw [mem]; exact st, by rw [dir]; rfl, by rw [dir]; rfl, by rw [mem]; rfl, by rw [offer]; rfl,
        by rw [conf]; exact drain⟩

/-- R117: the end of the LEAVE's window, of which the outcome was not decided here. -/
theorem leave_windowEnd {w : WindowRun} {lowRun : Nat} {reason : LeaveReason} (h : windowEnds s w) (own : w.own = true)
    (st : s.mem.st = .leaving) (leave : s.mem.leave = some l) (drain : s.conf.drain = false) (none : s.conf.decision = none)
    (flying : s.sel.inFlight = some { sender := .membership, body := .leave reason, discard := false }) :
    ∃ d t, exec (.windowEnd lowRun) s = .next t ∧ t.now = max s.now w.due ∧ Ends d t ∧ d.mem.st = .leaving ∧
      d.dir.window = s.dir.window ∧ d.dir.frontier = s.dir.frontier ∧ LeaveSettled l (ownStands w lowRun) d := by
  obtain ⟨rest, next⟩ := exec_windowEnds (lowRun := lowRun) h
  obtain ⟨_, _, _, judged, budget⟩ := h
  obtain ⟨now, _, _, _, conf, dir, st', sel⟩ := closing_spec s w rest lowRun
  obtain ⟨_, _, _, _, mem⟩ := closing_beside s w rest lowRun
  have last := closed_now (closing s w rest lowRun) w (w.observed lowRun)
  generalize closing s w rest lowRun = u at *
  have outside : (u.setFilter { u.filter with window := .none }).batch.st.inGroup = false :=
    inGroup_false.2 (by show u.mem.st ≠ .syncing ∧ u.mem.st ≠ .member; simp [st', st])
  have result := closed_own (cls := w.observed lowRun) judged own (by rw [conf]; exact budget)
  rw [outcome_undecided (by rw [conf, none]), deliver_leave outside (by exact sel ▸ flying), stands_iff] at result
  obtain ⟨leaving, window, frontier, settled⟩ := leaveResult_settles (l := l) (by exact st'.trans st)
    (by show u.mem.leave = _; rw [mem]; exact leave) (by show u.conf.drain = _; rw [conf, drain]) rfl result
  exact ⟨_, _, next, last.trans now, ends _, leaving, window.trans (congrArg Directory.window dir),
    frontier.trans (congrArg Directory.frontier dir), settled⟩

/-- Settles O37: the timer's expiry by `groupPart_ends_at_expiry`, the LEAVE's result by `leave_windowEnd`. -/
theorem leaveTimerEndsTheGroupPart : Obligations.LeaveTimerEndsTheGroupPart := by
  refine ⟨fun s l e released st leave timer => ⟨fun f flying isLeave => ?_, fun other => ?_⟩, ?_⟩
  · exact exec_leaveTimerExpiry_flying released st leave timer (by simp [State.leaveFlies, flying, isLeave])
  · have grounded : s.leaveFlies = false := by
      unfold State.leaveFlies
      cases flying : s.sel.inFlight with
      | none => rfl
      | some f => exact (other f flying).1
    have free : (s.at e).sel.flies .outbound = false := by
      show s.sel.flies .outbound = false
      unfold Selector.flies
      cases flying : s.sel.inFlight with
      | none => rfl
      | some f => simp [(other f flying).2]
    have next := exec_leaveTimerExpiry released st leave timer grounded
    have works : Internal (s.at e) (s.at e).batch.endGroupPart.flush.settle :=
      .settle (.flush (.endGroupPart (b := State.batch _) (.refl _)))
    obtain ⟨st', leave', offer, queue, cat, peers, drain, dropped, bus, window, frontier⟩ :=
      groupPart_ends_at_expiry (endGroupPart_ends (s.at e).batch) rfl st leave free
    exact ⟨_, next, now_of_internal works, st', leave', offer, queue, cat, peers, drain, dropped, bus, window, frontier,
      keepsFixed_of_internal works⟩
  · intro s w lowRun l reason h own st leave drain none flying
    dsimp only
    obtain ⟨d, t, next, now, ended, leaving, window, frontier, settled⟩ :=
      leave_windowEnd (lowRun := lowRun) h own st leave drain none flying
    refine ⟨t, next, now, by rw [ended.mem, leaving], ?_, by rw [ended.dir, window], by rw [ended.dir, frontier],
      keepsFixed_of_works (windowEnd_works lowRun) next⟩
    unfold LeaveSettled at settled
    cases stands : ownStands w lowRun with
    | true =>
      rw [stands, if_pos rfl] at settled
      obtain ⟨u, part, leave', grounded⟩ := settled
      exact (if_pos (.inl rfl)).mpr (part.at_windowEnd ended leave' grounded)
    | false =>
      rw [stands, if_neg Bool.false_ne_true] at settled
      by_cases limit : l.expired = true ∨ 3 ≤ l.voided + 1
      · rw [if_pos limit] at settled
        obtain ⟨u, part, leave', grounded⟩ := settled
        exact (if_pos (.inr limit)).mpr (part.at_windowEnd ended leave' grounded)
      · rw [if_neg limit] at settled
        obtain ⟨leave', offer, drain'⟩ := settled
        have again : t.mem.leave = some { l with voided := l.voided + 1 } ∧ t.sel.membership = some (.leave l.reason) ∧
            t.conf.drain = false := by
          refine ⟨by rw [ended.mem, leave'], ?_, ended.drain.trans drain'⟩
          exact (ended.memberOffer (by simp [Selector.offersPresence, offer])).trans offer
        exact (if_neg (not_or.2 ⟨Bool.false_ne_true, limit⟩)).mpr again

end Sys2Proof.Proofs
end

section
/-! The waits of the outbound head and of the responder (R90, R91, R137), and the result of the responder's frame (R137, R138). -/

namespace Sys2Proof.Proofs

open Sys2Proof Sys2Proof.Machine

variable {s t : State} {b : Batch} {w : WindowRun} {rest : List WindowRun} {lowRun n : Nat} {cls : Observed} {r : ResponderCtx}
  {f : FrameBody}

/-! ## The ends of the waits -/

/-- The wait of the head has ended at `e`, before the head and the choice follow. -/
def headRested (s : State) (e : Nat) (h : OutEntry) : State := (s.at e).setHead { h with state := .waiting }

theorem exec_headWaitEnd {c : Instr} {h : OutEntry} {rest : List OutEntry} {e : Nat} (released : s.resetHeld = false)
    (entries : s.out.entries = h :: rest)
    (wait : (c = .staleWaitEnd ∧ h.state = .staleWait e) ∨ (c = .backoffEnd ∧ h.state = .backoff e)) :
    exec c s = .next (headRested s e h).settleSend := by
  rcases wait with ⟨rfl, state⟩ | ⟨rfl, state⟩
  · show execStaleWaitEnd s = _
    rw [execStaleWaitEnd, act_released released, entries]
    simp only [state]
    rfl
  · show execBackoffEnd s = _
    rw [execBackoffEnd, act_released released, entries]
    simp only [state]
    rfl

theorem headRested_eq {h : OutEntry} {rest : List OutEntry} {e : Nat} (entries : s.out.entries = h :: rest) :
    headRested s e h = { s with
      now := max s.now e, out := { s.out with entries := { h with state := .waiting } :: rest } } := by
  have tail : (s.at e).out.entries.tail = rest := by
    show s.out.entries.tail = rest
    rw [entries, List.tail_cons]
  unfold headRested State.setHead
  rw [tail]
  rfl

/-- R135, R137: the responder's context and offer as they are while it offers a frame; a choice of another offer of its has ended. -/
theorem offerResponse_follows (s : State) (r : ResponderCtx) (f : FrameBody) : Follows { s with
    cat := { s.cat with responder := some { r with phase := .offered f } }, sel := { s.sel with responder := some f } }
    (s.offerResponse r f) := by
  unfold State.offerResponse State.reoffer
  split
  · next same =>
    have offered : s.sel.responder = some f := same
    rw [← offered]
    exact .refl _
  · exact ⟨rfl, rfl, rfl, rfl, rfl, rfl, rfl, fun _ => rfl, rfl, rfl, rfl⟩

theorem offerResponse_responder : (s.offerResponse r f).cat.responder = some { r with phase := .offered f } ∧
    (s.offerResponse r f).sel.responder = some f := by
  have follows := offerResponse_follows s r f
  have cat := congrArg (fun t : State => t.cat.responder) follows.same
  exact ⟨cat, follows.responseOffer⟩

theorem exec_responderBackoffEnd {e : Nat} (released : s.resetHeld = false) (responder : s.cat.responder = some r)
    (phase : r.phase = .backoff f e) (group : s.inGroup = true) :
    exec .responderBackoffEnd s = .next ((s.at e).offerResponse r f).settle := by
  show execResponderBackoffEnd s = _
  rw [execResponderBackoffEnd, act_released released, responder]
  simp only [phase, group, if_true]

/-! ## What a window's work leaves of the outbound queue -/

theorem out_of_seeks (h : Seeks s t) : t.out = s.out := by rw [h.same]

theorem recheck_out (b : Batch) : b.recheck.st.out = b.st.out := out_of_seeks (Pursues.refl b).recheck.seeks

theorem followGaps_out (b : Batch) : b.followGaps.st.out = b.st.out := out_of_seeks (Pursues.refl b).followGaps.seeks

theorem applyRetired_out {l : List Nat} : (s.applyRetired l).out = s.out := by
  unfold State.applyRetired
  split <;> rfl

theorem reoffer_out {who : Sender} : (s.reoffer who f).out = s.out := by
  unfold State.reoffer
  split <;> rfl

theorem respDecide_out : (s.respDecide r).out = s.out := by
  unfold State.respDecide State.offerResponse
  split
  · rfl
  · split
    · rw [reoffer_out]
      rfl
    · rfl

theorem respSettle_out (s : State) : s.respSettle.out = s.out := by
  unfold State.respSettle
  split
  · split
    · split
      · rfl
      · rfl
      · exact respDecide_out
    · rfl
  · rfl

theorem peerHeard_out {k : Station} : (s.peerHeard k f).out = s.out := by
  unfold State.peerHeard
  dsimp only
  split <;> rfl

theorem presenceHeard_out {k : Station} {p : Nat} {c : Check} : (s.presenceHeard k p c).1.out = s.out := by
  have flagged : ∀ u : State, u.flagFault.out = u.out := fun u => by rw [flagFault_eq]; rfl
  have checked : (s.checkDivergence k p c).out = s.out := by
    unfold State.checkDivergence
    dsimp only
    split
    · rfl
    · split
      · split
        · exact flagged _
        · exact flagged _
      · rfl
  show (State.journal _ _).out = _
  rw [State.journal, postAll_eq]
  exact checked

theorem peerLeft_out {k : Station} : (b.peerLeft k).st.out = b.st.out := by
  have responder : (b.on fun s => match s.cat.responder with
      | some r => if r.requester = k then s.endResponder else s
      | none => s).st.out = b.st.out := by
    rw [on_st]
    split
    · split
      · exact endResponder_cat.2
      · rfl
    · rfl
  unfold Batch.peerLeft
  dsimp only
  split
  · split
    · split
      · exact (out_of_seeks (Pursues.refl _).timeOut.seeks).trans responder
      · exact responder
    · exact responder
  · exact responder

theorem takeFetch_out {k : Station} {g m : Nat} : (s.takeFetch k g m).out = s.out := by
  unfold State.takeFetch
  split
  · rfl
  · exact respDecide_out

theorem replayHeard_out {k : Station} {g : Nat} {x : Bool} : (b.replayHeard k g x).st.out = b.st.out := by
  unfold Batch.replayHeard
  split
  · split <;> rfl
  · rfl

/-- A peer's frame that is handed over leaves the outbound queue alone. -/
theorem handMember_out {k : Station} {x : Bool} {l : List Nat} : (b.handMember k f x l).st.out = b.st.out := by
  have heard : (b.on fun s => s.peerHeard k f).st.out = b.st.out := peerHeard_out
  unfold Batch.handMember
  dsimp only
  generalize (b.on fun s => s.peerHeard k f) = d at heard ⊢
  split
  · next p _ c _ =>
    have asked := (Pursues.refl (d.on fun _ => (d.st.presenceHeard k p c).1.applyRetired (d.st.presenceHeard k p c).2)).recheck
    exact (out_of_seeks asked.presenceHeard.seeks).trans (applyRetired_out.trans (presenceHeard_out.trans heard))
  · exact peerLeft_out.trans heard
  · split
    · exact takeFetch_out.trans heard
    · exact heard
  · split
    · exact (out_of_seeks (Pursues.refl d).goneHeard.seeks).trans heard
    · exact heard
  · split
    · exact replayHeard_out.trans heard
    · exact heard
  · exact applyRetired_out.trans heard
  · exact heard
  · exact heard
  · exact heard

theorem handOn_out {c : Option Classified} {x : Bool} {l : List Nat} (group : b.st.inGroup = true) :
    (b.handOn c x l).st.out = b.st.out := by
  unfold Batch.handOn
  split
  · rw [if_pos group]
    exact handMember_out
  · rfl

/-- R90: a head in STALE_WAIT goes back to WAITING. -/
theorem endStaleWait_entries {h : OutEntry} {rest : List OutEntry} {e : Nat} (entries : s.out.entries = h :: rest)
    (state : h.state = .staleWait e) : s.endStaleWait.out.entries = { h with state := .waiting } :: rest := by
  unfold State.endStaleWait
  rw [entries]
  simp only [state, State.setHead, setOut_out, entries, List.tail_cons]

/-- R90, R92: what a window's work makes of the outbound queue. -/
theorem afterOutcome_queue (b : Batch) (n : Nat) : ∃ u : State, u.out = b.st.out ∧ u.dir.frontier = b.st.dir.frontier ∧
    (b.afterOutcome n).st.out = ((if n < u.dir.frontier then u.endStaleWait else u).spendNumbers).out := by
  refine ⟨b.recheck.st.respSettle, (respSettle_out _).trans (recheck_out b), ?_, followGaps_out _⟩
  exact (abides_of_beside beside_respSettle).frontier.trans (Abides.pursued.recheck (.refl b.st)).frontier

theorem spendNumbers_of_lt (h : s.dir.frontier < 2 ^ 48) : s.spendNumbers = s := if_pos (.inl h)

theorem endStaleWait_frontier : s.endStaleWait.dir.frontier = s.dir.frontier :=
  (abides_of_beside beside_endStaleWait).frontier

/-! ## An own frame's result -/

/-- R98, R107: an own frame has left the bus; one to which nobody objected is reported as confirmed. -/
def landed (s : State) (cls : Observed) : State :=
  if cls = .none then (s.setSel { s.sel with inFlight := none }).ownConfirmed else s.setSel { s.sel with inFlight := none }

theorem landed_eq (s : State) (cls : Observed) : landed s cls = { s with
    sel := { s.sel with
      inFlight := none, membership := (landed s cls).sel.membership, choice := (landed s cls).sel.choice }
    mem := { s.mem with presence := (landed s cls).mem.presence } } := by
  unfold landed State.ownConfirmed
  split
  · split
    · dsimp only
      split <;> rfl
    · rfl
  · rfl

theorem landing_eq (b : Batch) (cls : Observed) :
    (if cls = .none then (b.on fun s => s.setSel { s.sel with inFlight := none }).on State.ownConfirmed
      else b.on fun s => s.setSel { s.sel with inFlight := none }) = b.on fun s => landed s cls := by
  unfold landed
  split <;> rfl

/-- R137, R138: the responder's frame. -/
theorem deliver_responder {x : Bool}
    (flying : b.st.sel.inFlight = some { sender := .responder, body := f, discard := false }) : b.deliver cls x =
    b.on fun s => (landed s cls).respResult (decide (cls = .none) && !x) (cls.isFull && !x) := by
  unfold Batch.deliver
  rw [flying]
  dsimp only
  rw [landing_eq]
  rfl

/-- R137, R138: what the result makes of the responder. -/
def Responded (s : State) (r : ResponderCtx) (f : FrameBody) (stands full : Bool) (t : State) : Prop :=
  if stands = true then
    if r.last < f.nextAfter r.next then t.cat.responder = none
    else ∃ q, t.cat.responder = some q ∧ q.requester = r.requester ∧ q.next = f.nextAfter r.next ∧ q.last = r.last ∧
      q.retries = 0
  else if 2 ≤ r.retries then t.cat.responder = none
  else if full = true then t.cat.responder = some { r with
      retries := r.retries + 1, phase := .backoff f (s.now + s.bt ((s.straps.station.val + 1) * 64)) } ∧
    t.sel.responder = none
  else t.cat.responder = some { r with retries := r.retries + 1 } ∧ t.sel.responder = some f

theorem Responded.congr {u : State} {stands full : Bool} (h : Responded s r f stands full t)
    (context : u.cat.responder = t.cat.responder) (offer : u.sel.responder = t.sel.responder) :
    Responded s r f stands full u := by
  unfold Responded at h ⊢
  rwa [context, offer]

theorem endResponder_responder : s.endResponder.cat.responder = none := by rw [endResponder_cat.1]

theorem respDecide_responder (s : State) (r : ResponderCtx) (group : s.inGroup = true) :
    ∃ q, (s.respDecide r).cat.responder = some q ∧ q.requester = r.requester ∧ q.next = r.next ∧ q.last = r.last ∧
      q.retries = r.retries ∧ q.phase ≠ .settling := by
  unfold State.respDecide
  rw [group]
  simp only [Bool.not_true, Bool.false_eq_true, if_false]
  split
  · exact ⟨_, offerResponse_responder.1, rfl, rfl, rfl, rfl, ResponderPhase.noConfusion⟩
  · exact ⟨_, rfl, rfl, rfl, rfl, rfl, ResponderPhase.noConfusion⟩

/-- The context that the result leaves does not wait for its slot. -/
theorem respResult_responded (group : s.inGroup = true) (responder : s.cat.responder = some r) (phase : r.phase = .offered f)
    (consumed : s.sel.responder = none) (stands full : Bool) : Responded s r f stands full (s.respResult stands full) ∧
      ∀ q, (s.respResult stands full).cat.responder = some q → q.phase ≠ .settling := by
  have ended : ∀ q, s.endResponder.cat.responder = some q → q.phase ≠ .settling := fun q h => by
    rw [endResponder_responder] at h
    cases h
  unfold Responded State.respResult
  rw [responder]
  simp only [phase]
  cases stands with
  | true =>
    simp only [if_true]
    split
    · exact ⟨endResponder_responder, ended⟩
    · obtain ⟨q, present, requester, next, last, retries, busy⟩ := respDecide_responder s
        { r with next := f.nextAfter r.next, retries := 0, phase := .deciding } group
      refine ⟨⟨q, present, requester, next, last, retries⟩, fun p h => ?_⟩
      obtain rfl : q = p := Option.some.inj (present.symm.trans h)
      exact busy
  | false =>
    simp only [Bool.false_eq_true, if_false]
    by_cases limit : 2 ≤ r.retries
    · rw [if_pos limit, if_pos (by omega)]
      exact ⟨endResponder_responder, ended⟩
    · have again : ¬ 3 ≤ r.retries + 1 := by omega
      rw [if_neg limit, if_neg again]
      cases full with
      | true => exact ⟨⟨rfl, consumed⟩, fun q h => by cases h; exact ResponderPhase.noConfusion⟩
      | false =>
        simp only [Bool.false_eq_true, if_false]
        obtain ⟨present, offered⟩ := offerResponse_responder (s := s) (f := f)
          (r := { r with retries := r.retries + 1, phase := .offered f })
        refine ⟨⟨present, offered⟩, fun q h => ?_⟩
        cases present.symm.trans h
        exact ResponderPhase.noConfusion

/-! ## What is left to be done stands beside the responder -/

theorem respSettle_idle (idle : ∀ q, s.cat.responder = some q → q.phase ≠ .settling) : s.respSettle = s := by
  unfold State.respSettle
  split
  · next q present => rw [if_neg (idle q present)]
  · rfl

theorem applyRetired_responder {l : List Nat} : (s.applyRetired l).cat.responder = s.cat.responder ∧
    (s.applyRetired l).sel.responder = s.sel.responder := by
  unfold State.applyRetired
  split <;> exact ⟨rfl, rfl⟩

theorem spendNumbers_responder : s.spendNumbers.cat = s.cat ∧ s.spendNumbers.sel.responder = s.sel.responder := by
  unfold State.spendNumbers
  split
  · exact ⟨rfl, rfl⟩
  · rw [dropAll_eq]
    exact ⟨rfl, rfl⟩

theorem endStaleWait_responder : s.endStaleWait.cat = s.cat ∧ s.endStaleWait.sel = s.sel := by
  unfold State.endStaleWait
  split
  · split <;> exact ⟨rfl, rfl⟩
  · exact ⟨rfl, rfl⟩

theorem pursued_responder {c d : Batch} (h : Pursues c d) (k : KeepsOffers c.st d.st) :
    d.st.cat.responder = c.st.cat.responder ∧ d.st.sel.responder = c.st.sel.responder :=
  ⟨by rw [h.seeks.same], by rw [k]⟩

/-- A responder that does not wait for its slot is left as it is. -/
theorem afterOutcome_responder (idle : ∀ q, b.st.cat.responder = some q → q.phase ≠ .settling) (n : Nat) :
    (b.afterOutcome n).st.cat.responder = b.st.cat.responder ∧ (b.afterOutcome n).st.sel.responder = b.st.sel.responder := by
  obtain ⟨rechecked, offered⟩ :=
    pursued_responder (Pursues.refl b).recheck (keepsOffers_pursued.recheck (keepsOffers_pursued.refl b.st))
  have woken : ∀ u : State, (if n < u.dir.frontier then u.endStaleWait else u).spendNumbers.cat = u.cat ∧
      (if n < u.dir.frontier then u.endStaleWait else u).spendNumbers.sel.responder = u.sel.responder := fun u => by
    rw [spendNumbers_responder.1, spendNumbers_responder.2]
    split
    · rw [endStaleWait_responder.1, endStaleWait_responder.2]
      exact ⟨rfl, rfl⟩
    · exact ⟨rfl, rfl⟩
  unfold Batch.afterOutcome
  dsimp only
  generalize b.recheck = d at rechecked offered ⊢
  obtain ⟨cat, sel⟩ := woken d.st.respSettle
  rw [respSettle_idle (by rw [rechecked]; exact idle)] at cat sel
  obtain ⟨reported, kept⟩ := pursued_responder (Pursues.refl (d.on fun s =>
    (if n < s.respSettle.dir.frontier then s.respSettle.endStaleWait else s.respSettle).spendNumbers)).followGaps
    (keepsOffers_pursued.followGaps (keepsOffers_pursued.refl _))
  rw [reported, kept, on_st, respSettle_idle (by rw [rechecked]; exact idle), cat, sel]
  exact ⟨rechecked, offered⟩

/-! ## The statement -/

/-- R90: a head in STALE_WAIT at the window's end of a peer's frame. -/
theorem staleWait_windowEnd {e : Nat} {h : OutEntry} {rest : List OutEntry} (ends' : windowEnds s w) (peer : w.own = false)
    (group : s.mem.st = .syncing ∨ s.mem.st = .member) (entries : s.out.entries = h :: rest) (state : h.state = .staleWait e)
    (room : s.dir.frontier < 2 ^ 48) : ∃ t, exec (.windowEnd lowRun) s = .next t ∧ t.now = max s.now w.due ∧
      (s.dir.frontier < t.dir.frontier → t.dir.frontier < 2 ^ 48 → t.HeadFollowsConditions ∧
        t.out.entries.map OutEntry.atRest = ({ h with state := .waiting } :: rest).map OutEntry.atRest) ∧
      (t.dir.frontier = s.dir.frontier → t.out.entries.map OutEntry.atRest = s.out.entries.map OutEntry.atRest) := by
  obtain ⟨others, next⟩ := exec_windowEnds (lowRun := lowRun) ends'
  obtain ⟨_, _, _, judged, budget⟩ := ends'
  obtain ⟨now, _, _, _, conf, dir, st, _⟩ := closing_spec s w others lowRun
  obtain ⟨out, _⟩ := closing_beside s w others lowRun
  have last := closed_now (closing s w others lowRun) w (w.observed lowRun)
  generalize closing s w others lowRun = u at *
  have result := closed_peer (cls := w.observed lowRun) judged peer (by rw [conf]; exact budget)
  obtain ⟨same, _, _, mem, _⟩ := outcome_beside u (w.observed lowRun)
  have within : (outcome u (w.observed lowRun)).batch.st.inGroup = true :=
    inGroup_iff.2 (by show (outcome u _).mem.st = _ ∨ (outcome u _).mem.st = _; rw [mem, st]; exact group)
  rw [dir] at result
  generalize handed : (if w.observed lowRun = .none then _ else _ : Batch) = c at result
  have kept : c.st.out = s.out := by
    rw [← handed, ← out]
    split
    · exact (handOn_out within).trans same
    · exact same
  obtain ⟨v, out', frontier, queue⟩ := afterOutcome_queue c s.dir.frontier
  have finish := ends (closed u w (w.observed lowRun))
  have abides := afterOutcome_abides c s.dir.frontier
  rw [← result] at queue abides
  have reached : (closed u w (w.observed lowRun)).flush.finishSwitch.settle.dir.frontier = v.dir.frontier := by
    rw [finish.dir, abides.frontier, frontier]
  have entries' : v.out.entries = h :: rest := by rw [out', kept, entries]
  refine ⟨_, next, last.trans now, fun raised below => ⟨headFollows_settle _, ?_⟩, fun same => ?_⟩
  · rw [reached] at raised below
    rw [finish.queue, queue, if_pos raised, spendNumbers_of_lt (by rwa [endStaleWait_frontier]), endStaleWait_entries entries' state]
  · rw [reached] at same
    rw [finish.queue, queue, if_neg (by omega), spendNumbers_of_lt (by omega), out', kept]

/-- R137, R138: the end of the window of the responder's frame. -/
theorem response_windowEnd (ends' : windowEnds s w) (own : w.own = true) (group : s.mem.st = .syncing ∨ s.mem.st = .member)
    (responder : s.cat.responder = some r) (phase : r.phase = .offered f)
    (flying : s.sel.inFlight = some { sender := .responder, body := f, discard := false }) (consumed : s.sel.responder = none) :
    ∃ t, exec (.windowEnd lowRun) s = .next t ∧ t.now = max s.now w.due ∧ t.sel.inFlight = none ∧ ∃ u : State,
      u.now = t.now ∧ u.straps = s.straps ∧
      Responded u r f (ownStands w lowRun) ((w.observed lowRun).isFull && !w.readback) t := by
  obtain ⟨others, next⟩ := exec_windowEnds (lowRun := lowRun) ends'
  obtain ⟨_, _, _, judged, budget⟩ := ends'
  obtain ⟨now, _, _, _, conf, dir, st, sel⟩ := closing_spec s w others lowRun
  obtain ⟨_, cat, straps, _⟩ := closing_beside s w others lowRun
  have last := closed_now (closing s w others lowRun) w (w.observed lowRun)
  generalize closing s w others lowRun = u at *
  have result := closed_own (cls := w.observed lowRun) judged own (by rw [conf]; exact budget)
  have finish := ends (closed u w (w.observed lowRun))
  obtain ⟨_, cat', sel', mem', now', straps', _⟩ := outcome_beside u (w.observed lowRun)
  generalize outcome u (w.observed lowRun) = v at *
  have line := onLine_deliver (b := v.batch) (c := w.observed lowRun) (x := w.readback)
  have delivered := deliver_responder (b := v.batch) (cls := w.observed lowRun) (x := w.readback)
    (by show v.sel.inFlight = _; rw [sel', sel, flying])
  rw [stands_iff] at delivered
  have left := landed_eq v (w.observed lowRun)
  obtain ⟨responded, idle⟩ := respResult_responded (s := landed v (w.observed lowRun)) (r := r) (f := f)
    (inGroup_iff.2 (by rw [left]; show v.mem.st = _ ∨ v.mem.st = _; rw [mem', st]; exact group))
    (by rw [left]; show v.cat.responder = _; rw [cat', cat, responder]) phase
    (by rw [left]; show v.sel.responder = _; rw [sel', sel, consumed])
    (ownStands w lowRun) ((w.observed lowRun).isFull && !w.readback)
  have reached : (v.batch.deliver (w.observed lowRun) w.readback).st =
      (landed v (w.observed lowRun)).respResult (ownStands w lowRun) ((w.observed lowRun).isFull && !w.readback) := by
    rw [delivered]
    rfl
  have instant : (landed v (w.observed lowRun)).now = u.now ∧ (landed v (w.observed lowRun)).straps = s.straps := by
    rw [left]
    exact ⟨now', straps'.trans straps⟩
  rw [← reached] at responded idle
  generalize v.batch.deliver (w.observed lowRun) w.readback = d at result line responded idle
  generalize Outcome.retired _ = retired at result
  obtain ⟨context, offer⟩ := applyRetired_responder (s := d.st) (l := retired)
  obtain ⟨context', offer'⟩ := afterOutcome_responder (b := d.on fun u => u.applyRetired retired)
    (by rw [on_st, context]; exact idle) u.dir.frontier
  have abides := afterOutcome_abides (d.on fun u => u.applyRetired retired) u.dir.frontier
  rw [← result] at context' offer' abides
  refine ⟨_, next, last.trans now, ?_, _, instant.1.trans last.symm, instant.2,
    responded.congr (by rw [finish.cat, context', on_st, context]) (by rw [finish.responseOffer, offer', on_st, offer])⟩
  exact finish.inFlight.trans (grounded_of_onLine (abides.line.trans (onLine_applyRetired.trans line)))

/-- Settles O40: the waits' ends by `exec_headWaitEnd` and `exec_responderBackoffEnd`, a STALE_WAIT at a window's end by
`staleWait_windowEnd`, the responder's result by `response_windowEnd`. -/
theorem sendersWaitsEnd : Obligations.SendersWaitsEnd := by
  refine ⟨fun s e released => ⟨fun c h rest entries wait => ?_, fun r f responder phase group => ?_⟩,
    fun s w lowRun e h rest ends' peer group entries state room =>
      staleWait_windowEnd ends' peer group entries state room,
    fun s w lowRun r f ends' own group responder phase flying consumed => ?_⟩
  · exact ⟨_, exec_headWaitEnd released entries wait, headFollows_settleSend _, headRested_eq entries ▸ Follows.settleSend _⟩
  · exact ⟨_, exec_responderBackoffEnd released responder phase (inGroup_iff.2 group),
      (offerResponse_follows (s.at e) r f).trans (.settle _)⟩
  · obtain ⟨t, next, now, grounded, u, now', straps, responded⟩ :=
      response_windowEnd (lowRun := lowRun) ends' own group responder phase flying consumed
    refine ⟨t, next, now, grounded, ?_⟩
    have full : ((w.observed lowRun).isFull && !w.readback) = true ↔ 18 < max lowRun w.pulled ∧ w.readback = false := by
      rw [WindowRun.observed, Bool.and_eq_true, observedOf_isFull, Bool.not_eq_true']
    unfold Responded at responded
    rw [now', show u.bt _ = s.bt _ from congrArg (fun x : Straps => _ * btLength x.rate) straps, straps] at responded
    simp only [full] at responded
    exact responded

end Sys2Proof.Proofs
end

section
/-! The outbound head at the end of its own window (R88 to R93): what its attempt's outcome leaves of the queue, and which DROPPED
notices the event posts. -/

namespace Sys2Proof.Proofs

open Sys2Proof Sys2Proof.Machine

variable {s t u : State} {b : Batch} {w : WindowRun} {rest : List OutEntry} {windows : List WindowRun} {lowRun run n : Nat}
  {cls : Observed} {h : OutEntry} {p : StartParams} {stamp : Nat} {readback : Bool}

/-! ## The DROPPED notices of an event (R93) -/

/-- The tag and the reason of a DROPPED notice. -/
def dropOf : Notice → Option (Nat × DropReason)
  | .dropped tag reason => some (tag, reason)
  | _ => none

theorem dropOf_eq_some {x : Notice} {tag : Nat} {reason : DropReason} :
    dropOf x = some (tag, reason) ↔ x = .dropped tag reason := by
  cases x <;> simp [dropOf]

/-- From `s` to `t` these entries have been reported as dropped, in order; other notices may have been posted among them. -/
def Drops (drops : List (Nat × DropReason)) (s t : State) : Prop := ∃ l, Posted s t l ∧ l.filterMap dropOf = drops

namespace Drops

variable {l m : List (Nat × DropReason)}

theorem trans (h : Drops l s t) (k : Drops m t u) : Drops (l ++ m) s u := by
  obtain ⟨x, posted, rfl⟩ := h
  obtain ⟨y, posted', rfl⟩ := k
  exact ⟨x ++ y, posted.trans posted', List.filterMap_append⟩

theorem then_none (h : Drops l s t) (k : Drops [] t u) : Drops l s u := by
  have both := h.trans k
  rwa [List.append_nil] at both

theorem of_port (same : t.port = s.port) : Drops [] s t := ⟨[], same, rfl⟩

theorem of_posted {l : List Notice} (posted : Posted s t l) (other : ∀ x ∈ l, dropOf x = none) : Drops [] s t :=
  ⟨l, posted, List.filterMap_eq_nil_iff.2 other⟩

theorem of_seeks (h : Seeks s t) : Drops [] s t := of_port (by rw [h.same])

/-- R179: while none is lost, the notices added report these drops and no other. -/
theorem mem_added {d : List (Nat × DropReason)} (h : Drops d s t) (bounded : s.port.Bounded) (room : s.port.lost < 255)
    (kept : t.port.lost = s.port.lost) : ∃ added, t.port.notices = s.port.notices ++ added ∧
      ∀ tag reason, .dropped tag reason ∈ added ↔ (tag, reason) ∈ d := by
  obtain ⟨l, posted, rfl⟩ := h
  have port : t.port = (s.postAll l).port := Eq.trans posted (posted_postAll s l).symm
  refine ⟨l, ?_, fun tag reason => ?_⟩
  · rw [port, notices_postAll l s bounded room (by rw [← port, kept])]
  · simp only [List.mem_filterMap, dropOf_eq_some, exists_eq_right]

end Drops

/-! ## Events that drop nothing -/

theorem lostNotices_dropOf {l : List Nat} : ∀ x ∈ lostNotices l, dropOf x = none := fun _ m => by
  obtain ⟨_, _, rfl⟩ := eq_lost_of_mem_lostNotices m
  rfl

theorem openedNotices_dropOf {l : List Nat} : ∀ x ∈ openedNotices l, dropOf x = none := fun x m => by
  cases l with
  | nil => cases m
  | cons g rest => rw [List.mem_singleton.1 m]; rfl

theorem journal_drops (s : State) (c : JournalChange) : Drops [] s (s.journal c) :=
  .of_posted (posted_postAll (s.setDir c.dir) _) fun x m =>
    (List.mem_append.1 m).elim (lostNotices_dropOf x) (openedNotices_dropOf x)

theorem postCommitted_drops (s : State) (e : PendEntry) : Drops [] s (s.postCommitted e) := by
  unfold State.postCommitted
  split
  · exact .of_posted (l := [.committed e.tag e.gsn]) rfl fun x m => by rw [List.mem_singleton.1 m]; rfl
  · exact .of_port rfl

theorem confirmed_drops (s : State) (e : PendEntry) : Drops [] s (s.confirmed e).st := by
  unfold State.confirmed
  dsimp only
  split
  · split
    · exact (journal_drops (s.setEntries (removeEntry e.gsn s.conf.entries)) _).trans (postCommitted_drops _ e)
    · split <;> exact .of_port rfl
  · split
    · exact journal_drops (s.confirmEntry e) _
    · split <;> exact .of_port rfl

theorem applyOutcome_drops (s : State) (x : Bool) : Drops [] s (s.applyOutcome x).st := by
  unfold State.applyOutcome
  dsimp only
  split
  · exact .of_port rfl
  · split
    · exact confirmed_drops s _
    · exact .of_port rfl

theorem outcome_drops (s : State) (cls : Observed) : Drops [] s (outcome s cls) :=
  (applyOutcome_drops (s.setFilter { s.filter with window := none }) _).trans (.of_port countBudget_port)

/-- R40: a fault of the objection line found at the window's end is reported, and no drop. -/
theorem closing_drops (s : State) (w : WindowRun) (windows : List WindowRun) (lowRun : Nat) :
    Drops [] s (closing s w windows lowRun) := by
  have quiet : Drops [] s (afterClosing s w windows) := .of_port (by rw [afterClosing_eq])
  unfold closing
  split
  · refine quiet.trans ?_
    rw [objectionFault_eq]
    split
    · exact .of_port rfl
    · exact .of_posted (l := [.lineFault .objection]) rfl fun x m => by rw [List.mem_singleton.1 m]; rfl
  · exact quiet

theorem applyRetired_drops (s : State) (l : List Nat) : Drops [] s (s.applyRetired l) := .of_seeks (Seeks.refl s).applyRetired

theorem flush_drops (tidy : Tidy b) : Drops [] b.st b.flush := .of_posted (posted_postAll b.st _) fun x m => by
  rcases List.mem_append.1 m with m | m
  · rcases List.mem_append.1 m with m | m
    · obtain ⟨_, _, rfl⟩ := tidy.lost x m; rfl
    · obtain ⟨_, _, rfl⟩ := tidy.filled x m; rfl
  · obtain ⟨_, rfl⟩ := tidy.states x m; rfl

/-- The end of a window's event drops nothing. -/
theorem ends_drops (tidy : Tidy b) : Drops [] b.st b.flush.finishSwitch.settle :=
  (flush_drops tidy).trans (.of_port ((settle_port _).trans (finishSwitch_port _)))

/-! ## The numbers are spent (R92) -/

/-- R92: what a frontier leaves of a queue. -/
def unspent (frontier : Nat) (l : List OutEntry) : List OutEntry := if frontier < 2 ^ 48 then l else []

/-- R92: the drops of a queue at a frontier. -/
def spentDrops (frontier : Nat) (l : List OutEntry) : List (Nat × DropReason) :=
  if frontier < 2 ^ 48 then [] else l.map fun e => (e.tag, .numbersSpent)

theorem mem_spentDrops {frontier tag : Nat} {l : List OutEntry} {reason : DropReason} :
    (tag, reason) ∈ spentDrops frontier l ↔ 2 ^ 48 ≤ frontier ∧ reason = .numbersSpent ∧ ∃ e ∈ l, e.tag = tag := by
  unfold spentDrops
  split
  · next below => exact iff_of_false List.not_mem_nil fun spent => absurd below (Nat.not_lt.2 spent.1)
  · next above =>
    rw [List.mem_map]
    refine ⟨fun ⟨e, m, eq⟩ => ?_, fun ⟨_, reason, e, m, tag⟩ => ⟨e, m, by rw [reason, tag]⟩⟩
    cases eq
    exact ⟨Nat.not_lt.1 above, rfl, e, m, rfl⟩

theorem dropAll_drops (s : State) (r : DropReason) : Drops (s.out.entries.map fun e => (e.tag, r)) s (s.dropAll r) :=
  ⟨_, posted_postAll ((s.unoffer .outbound).setOut { s.out with entries := [], departing := false }) _, by
    rw [List.filterMap_map]
    exact congrFun List.filterMap_eq_map _⟩

theorem spendNumbers_spends (s : State) : s.spendNumbers.out.entries = unspent s.dir.frontier s.out.entries ∧
    Drops (spentDrops s.dir.frontier s.out.entries) s s.spendNumbers := by
  unfold unspent spentDrops
  by_cases below : s.dir.frontier < 2 ^ 48
  · rw [spendNumbers_of_lt below, if_pos below, if_pos below]
    exact ⟨rfl, .of_port rfl⟩
  · rw [if_neg below, if_neg below]
    by_cases empty : s.out.entries = []
    · rw [State.spendNumbers, if_pos (.inr empty), empty]
      exact ⟨rfl, .of_port rfl⟩
    · rw [State.spendNumbers, if_neg fun c => c.elim below empty]
      exact ⟨by rw [dropAll_out], dropAll_drops s _⟩

theorem endStaleWait_awake (awake : ∀ x e, s.out.entries.head? = some x → x.state ≠ .staleWait e) : s.endStaleWait = s := by
  unfold State.endStaleWait
  split
  · next x _ entries =>
    split
    · next e state => exact absurd state (awake x e (by rw [entries]; rfl))
    · rfl
  · rfl

/-- R90, R92: what a window's work leaves of the queue where it wakes no head that waits. -/
theorem afterOutcome_spends
    (awake : n < b.st.dir.frontier → ∀ x e, b.st.out.entries.head? = some x → x.state ≠ .staleWait e) :
    (b.afterOutcome n).st.out.entries = unspent b.st.dir.frontier b.st.out.entries ∧
    Drops (spentDrops b.st.dir.frontier b.st.out.entries) b.st (b.afterOutcome n).st := by
  have asked : Drops [] b.st b.recheck.st.respSettle :=
    (Drops.of_seeks (Pursues.refl b).recheck.seeks).trans (.of_port (respSettle_port _))
  have out : b.recheck.st.respSettle.out = b.st.out := (respSettle_out _).trans (recheck_out b)
  have frontier : b.recheck.st.respSettle.dir.frontier = b.st.dir.frontier :=
    (abides_of_beside beside_respSettle).frontier.trans (Abides.pursued.recheck (.refl b.st)).frontier
  have woken : (if n < b.recheck.st.respSettle.dir.frontier then b.recheck.st.respSettle.endStaleWait
      else b.recheck.st.respSettle) = b.recheck.st.respSettle := by
    split
    · next raised => exact endStaleWait_awake (by rw [out]; exact awake (frontier ▸ raised))
    · rfl
  have work : b.afterOutcome n = (b.recheck.on fun s => s.respSettle.spendNumbers).followGaps := by
    unfold Batch.afterOutcome
    dsimp only [Batch.on]
    rw [woken]
  obtain ⟨entries, drops⟩ := spendNumbers_spends b.recheck.st.respSettle
  rw [work, followGaps_out, ← frontier, ← out]
  exact ⟨entries, (asked.trans drops).then_none
    (.of_seeks (Pursues.refl (b.recheck.on fun s => s.respSettle.spendNumbers)).followGaps.seeks)⟩

theorem afterOutcome_tidy (tidy : Tidy b) : Tidy (b.afterOutcome n) :=
  have asked := (Pursues.refl b).recheck.tidy tidy
  (Pursues.refl _).followGaps.tidy ⟨asked.lost, asked.filled, asked.states⟩

/-! ## The head's attempt (R88 to R91) -/

/-- R89 to R91: the reason for which the outcome drops the head. -/
def dropReason (p : StartParams) (h : OutEntry) (readback : Bool) (run : Nat) : Option DropReason :=
  if readback = true ∨ (1 ≤ run ∧ run ≤ 8) then (if p.retryLimit ≤ h.contentRetries + 1 then some .retryLimit else none)
  else if run = 0 then none
  else if run ≤ 18 then (if 4 ≤ h.staleCount + 1 then some .staleLimit else none)
  else if 32 ≤ h.busyRetries + 1 then some .busyLimit else none

/-- R88 to R91: what the outcome leaves of the queue. -/
def leftQueue (s : State) (n : Nat) (p : StartParams) (h : OutEntry) (rest : List OutEntry) (readback : Bool) (run : Nat) :
    List OutEntry :=
  if dropReason p h readback run ≠ none then rest
  else if readback = true ∨ (1 ≤ run ∧ run ≤ 8) then
    { h with contentRetries := h.contentRetries + 1, state := .waiting } :: rest
  else if run = 0 then rest
  else if run ≤ 18 then { h with staleCount := h.staleCount + 1, state := .staleWait (n + 2 * s.heartbeat) } :: rest
  else { h with
    busyRetries := h.busyRetries + 1, state := .backoff (n + s.bt ((s.straps.station.val + 1) * 64)) } :: rest

theorem leftQueue_congr (params : t.params = s.params) (straps : t.straps = s.straps) :
    leftQueue t n p h rest readback run = leftQueue s n p h rest readback run := by
  unfold leftQueue State.heartbeat State.bt
  rw [params, straps]

/-- R88, R89: after a window in which nobody objected, no head waits for its peers. -/
theorem leftQueue_waiting (waiting : ∀ e ∈ rest, e.state = .waiting) :
    ∀ e ∈ leftQueue s n p h rest readback 0, e.state = .waiting := by
  unfold leftQueue
  split
  · exact waiting
  · split
    · exact List.forall_mem_cons.2 ⟨rfl, waiting⟩
    · exact waiting

theorem popHead_out (entries : s.out.entries = h :: rest) : s.popHead.out = { s.out with entries := rest } := by
  show { s.out with entries := s.out.entries.tail } = _
  rw [entries, List.tail_cons]

theorem dropHead_drops (s : State) (h : OutEntry) (r : DropReason) : Drops [(h.tag, r)] s (s.dropHead h r) :=
  ⟨[.dropped h.tag r], rfl, rfl⟩

theorem setHead_out {x : OutEntry} (entries : s.out.entries = h :: rest) :
    (s.setHead x).out = { s.out with entries := x :: rest } := by
  show { s.out with entries := x :: s.out.entries.tail } = _
  rw [entries, List.tail_cons]

theorem recordResult_inFlight (entries : s.out.entries = h :: rest) (state : h.state = .inFlight stamp)
    (params : s.params = some p) (readback : Bool) (run : Nat) :
    (s.recordResult (observedOf run) readback).out = { s.out with entries := leftQueue s s.now p h rest readback run } ∧
    Drops ((dropReason p h readback run).toList.map fun r => (h.tag, r)) s (s.recordResult (observedOf run) readback) := by
  have limit : s.retryLimit = p.retryLimit := by rw [State.retryLimit, params]
  have dropped : ∀ r, (s.dropHead h r).out = { s.out with entries := rest } ∧ Drops [(h.tag, r)] s (s.dropHead h r) :=
    fun r => ⟨popHead_out entries, dropHead_drops s h r⟩
  have again : ∀ x, (s.setHead x).out = { s.out with entries := x :: rest } ∧ Drops [] s (s.setHead x) :=
    fun x => ⟨setHead_out entries, .of_port rfl⟩
  have content : (readback || observedOf run == .content) = true ↔ readback = true ∨ (1 ≤ run ∧ run ≤ 8) := by
    rw [Bool.or_eq_true, beq_iff_eq, observedOf_eq_content]
  have stands : (observedOf run == .none) = true ↔ run = 0 := by rw [beq_iff_eq, observedOf_eq_none]
  have stale : (observedOf run == .stale) = true ↔ 9 ≤ run ∧ run ≤ 18 := by rw [beq_iff_eq, observedOf_eq_stale]
  unfold State.recordResult leftQueue dropReason
  rw [entries]
  simp only [state, limit, content, stands, stale]
  by_cases failed : readback = true ∨ (1 ≤ run ∧ run ≤ 8)
  · simp only [if_pos failed]
    by_cases last : p.retryLimit ≤ h.contentRetries + 1
    · simp only [if_pos last]
      exact dropped .retryLimit
    · simp only [if_neg last]
      exact again _
  · simp only [if_neg failed]
    by_cases confirmed : run = 0
    · simp only [if_pos confirmed]
      exact ⟨popHead_out entries, .of_port rfl⟩
    · simp only [if_neg confirmed]
      by_cases behind : run ≤ 18
      · simp only [if_pos behind, if_pos (show 9 ≤ run ∧ run ≤ 18 by omega)]
        by_cases last : 4 ≤ h.staleCount + 1
        · simp only [if_pos last]
          exact dropped .staleLimit
        · simp only [if_neg last]
          exact again _
      · simp only [if_neg behind, if_neg (show ¬ (9 ≤ run ∧ run ≤ 18) by omega)]
        by_cases last : 32 ≤ h.busyRetries + 1
        · simp only [if_pos last]
          exact dropped .busyLimit
        · simp only [if_neg last]
          exact again _

/-- R98: the RECORD's result reaches the outbound queue; no departure's drop waits for it. -/
theorem deliver_outbound {f : FrameBody} (flying : b.st.sel.inFlight = some { sender := .outbound, body := f, discard := false }) :
    b.deliver cls readback = b.on fun s => ((landed s cls).recordResult cls readback).finishDeparture := by
  unfold Batch.deliver
  rw [flying]
  dsimp only
  rw [landing_eq]
  rfl

theorem finishDeparture_staying (staying : s.out.departing = false) : s.finishDeparture = s := by
  rw [State.finishDeparture, staying]
  rfl

/-! ## The frontier at the window's end -/

/-- R69: an objection never raises the frontier. -/
theorem outcome_frontier_of_objected (objected : cls ≠ .none) (group : s.inGroup = true) :
    (outcome s cls).dir.frontier = s.dir.frontier := by
  cases decision : s.conf.decision with
  | none =>
    rw [outcome_undecided decision]
    rfl
  | some d =>
    rw [(outcome_eq_of_objected decision objected group).1, applied]
    split
    · exact foldl_keeps _ Directory.frontier (fun _ _ => rollBack_frontier _ _) _ _
    · rfl

/-! ## The statement -/

/-- R88 to R91: from `s` to the state in `b` the head has met its outcome, with the queue `left` and these drops. -/
structure Met (s : State) (b : Batch) (left : List OutEntry) (drops : List (Nat × DropReason)) : Prop where
  entries : b.st.out.entries = left
  drops : Drops drops s b.st
  frontier : b.st.dir.frontier = s.dir.frontier
  landed : b.st.sel.inFlight = none
  tidy : Tidy b

theorem grounded_congr (line : onLine t = onLine s) (grounded : s.sel.inFlight = none) : t.sel.inFlight = none :=
  grounded_of_onLine (line.trans (by rw [onLine, grounded, Option.isSome_none]))

theorem deliver_met {f : FrameBody} (flying : s.sel.inFlight = some { sender := .outbound, body := f, discard := false })
    (params : s.params = some p) (staying : s.out.departing = false) (entries : s.out.entries = h :: rest)
    (state : h.state = .inFlight stamp) (readback : Bool) (run : Nat) :
    Met s (s.batch.deliver (observedOf run) readback) (leftQueue s s.now p h rest readback run)
      ((dropReason p h readback run).toList.map fun r => (h.tag, r)) := by
  have line := onLine_deliver (b := s.batch) (c := observedOf run) (x := readback)
  have delivered := deliver_outbound (b := s.batch) (cls := observedOf run) (readback := readback) flying
  have kept := landed_eq s (observedOf run)
  have out : (landed s (observedOf run)).out = s.out := by rw [kept]
  have now : (landed s (observedOf run)).now = s.now := by rw [kept]
  have dir : (landed s (observedOf run)).dir = s.dir := by rw [kept]
  have params' : (landed s (observedOf run)).params = s.params := by rw [kept]
  have straps : (landed s (observedOf run)).straps = s.straps := by rw [kept]
  have port : (landed s (observedOf run)).port = s.port := by rw [kept]
  obtain ⟨result, drops⟩ := recordResult_inFlight (s := landed s (observedOf run)) (by rw [out]; exact entries) state
    (by rw [params']; exact params) readback run
  have staying' : ((landed s (observedOf run)).recordResult (observedOf run) readback).out.departing = false := by
    rw [result]
    exact (congrArg Outbound.departing out).trans staying
  have reached : (s.batch.deliver (observedOf run) readback).st =
      (landed s (observedOf run)).recordResult (observedOf run) readback := by
    rw [delivered, on_st]
    exact finishDeparture_staying staying'
  rw [now, leftQueue_congr params' straps] at result
  exact {
    entries := by rw [reached, result]
    drops := by
      rw [reached]
      exact (Drops.of_port port).trans drops
    frontier := by rw [reached, (beside_iff.1 beside_recordResult).2.2.2.1, dir]
    landed := grounded_of_onLine line
    tidy := by
      rw [delivered]
      exact ⟨(tidy_batch s).lost, (tidy_batch s).filled, (tidy_batch s).states⟩ }

theorem Met.applyRetired {left : List OutEntry} {drops : List (Nat × DropReason)} (h : Met s b left drops) (l : List Nat) :
    Met s (b.on fun u => u.applyRetired l) left drops where
  entries := by rw [on_st, applyRetired_out, h.entries]
  drops := h.drops.then_none (applyRetired_drops _ l)
  frontier := by rw [on_st, (abides_of_beside beside_applyRetired).frontier, h.frontier]
  landed := grounded_congr onLine_applyRetired h.landed
  tidy := ⟨h.tidy.lost, h.tidy.filled, h.tidy.states⟩

/-- R92: the window's work after the result spends the numbers and does nothing else to the queue. -/
theorem Met.afterOutcome {left : List OutEntry} {drops : List (Nat × DropReason)} (h : Met s b left drops)
    (awake : n < s.dir.frontier → ∀ x e, left.head? = some x → x.state ≠ .staleWait e) :
    Met s (b.afterOutcome n) (unspent s.dir.frontier left) (drops ++ spentDrops s.dir.frontier left) := by
  obtain ⟨entries, spent⟩ := afterOutcome_spends (b := b) (n := n) (by rw [h.frontier, h.entries]; exact awake)
  rw [h.frontier, h.entries] at entries spent
  have abides := afterOutcome_abides b n
  exact {
    entries := entries
    drops := h.drops.trans spent
    frontier := abides.frontier.trans h.frontier
    landed := grounded_congr abides.line h.landed
    tidy := afterOutcome_tidy h.tidy }

/-- R88 to R93: the end of the head's window, from the state in which its outcome is decided. -/
theorem closed_met {f : FrameBody} (judged : w.overlapping = false) (own : w.own = true) (budget : s.conf.budget ≤ 14)
    (group : s.inGroup = true) (flying : s.sel.inFlight = some { sender := .outbound, body := f, discard := false })
    (params : s.params = some p) (staying : s.out.departing = false) (entries : s.out.entries = h :: rest)
    (state : h.state = .inFlight stamp) (waiting : ∀ e ∈ rest, e.state = .waiting) (run : Nat) : ∃ v,
    let left := leftQueue s s.now p h rest w.readback run
    Drops [] s v ∧ Met v (closed s w (observedOf run)) (unspent v.dir.frontier left)
      ((dropReason p h w.readback run).toList.map (fun r => (h.tag, r)) ++ spentDrops v.dir.frontier left) := by
  refine ⟨outcome s (observedOf run), outcome_drops s _, ?_⟩
  obtain ⟨out, _, sel, _, now, straps, params'⟩ := outcome_beside s (observedOf run)
  have met := deliver_met (s := outcome s (observedOf run)) (by rw [sel]; exact flying) (by rw [params']; exact params)
    (by rw [out]; exact staying) (by rw [out]; exact entries) state w.readback run
  rw [leftQueue_congr params' straps, now] at met
  rw [closed_own judged own budget]
  refine (met.applyRetired _).afterOutcome fun raised x e head stale => ?_
  have quiet : run = 0 := by
    by_contra objected
    exact absurd raised (by rw [outcome_frontier_of_objected (mt observedOf_eq_none.1 objected) group]; exact lt_irrefl _)
  subst quiet
  exact nomatch stale.symm.trans (leftQueue_waiting waiting x (List.mem_of_head? head))

/-- The notices added where these drops have been posted (R88 to R93). -/
theorem mem_headDrops {tag : Nat} {reason : DropReason} {left : List OutEntry} {dropped : Option DropReason} {frontier : Nat} :
    (tag, reason) ∈ dropped.toList.map (fun r => (h.tag, r)) ++ spentDrops frontier left ↔
      (tag = h.tag ∧ dropped = some reason) ∨
      (2 ^ 48 ≤ frontier ∧ reason = .numbersSpent ∧ ∃ e ∈ left, e.tag = tag) := by
  rw [List.mem_append, mem_spentDrops]
  refine or_congr_left ?_
  cases dropped <;> simp [eq_comm]

/-- Settles O31: `closed_met` says what the outcome leaves of the queue and which drops it reports; what ends the event adds no
drop and moves the head between WAITING and CONTENDING at most. -/
theorem ownRecordMeetsItsOutcome : Obligations.OwnRecordMeetsItsOutcome := by
  intro s w lowRun stamp h rest f p released _ windows opened judged own _ _ group flying params staying entries state waiting
    budget
  dsimp only
  have next := exec_windowEnd (lowRun := lowRun) released windows opened
  obtain ⟨now, _, _, _, conf, dir, st, sel⟩ := closing_spec s w [] lowRun
  obtain ⟨out, _, straps, params', _⟩ := closing_beside s w [] lowRun
  have closing' := closing_drops s w [] lowRun
  have last := closed_now (closing s w [] lowRun) w (w.observed lowRun)
  have fixed := keepsFixed_of_works (windowEnd_works lowRun) next
  obtain ⟨v, outcome', met⟩ := closed_met (s := closing s w [] lowRun) judged own (by rw [conf]; exact budget)
    (inGroup_iff.2 (by rw [st]; exact group)) (by rw [sel]; exact flying) (by rw [params']; exact params)
    (by rw [out]; exact staying) (by rw [out]; exact entries) state waiting (max lowRun w.pulled)
  rw [leftQueue_congr params' straps, now] at met
  have finish := ends (closed (closing s w [] lowRun) w (w.observed lowRun))
  have posted := ((closing'.trans outcome').trans met.drops).then_none (ends_drops met.tidy)
  have frontier := (congrArg Directory.frontier finish.dir).trans met.frontier
  refine ⟨_, next, last.trans now, finish.inFlight.trans met.landed, fun below => ?_, fun above => ?_,
    fun bounded room kept => ?_, fixed⟩
  · have unspent' := met.entries
    rw [unspent, if_pos (frontier ▸ below)] at unspent'
    exact finish.queue.trans (congrArg _ unspent')
  · have spent := met.entries
    rw [unspent, if_neg (Nat.not_lt.2 (frontier ▸ above))] at spent
    exact finish.entries_nil spent
  · obtain ⟨added, notices, mem⟩ := posted.mem_added bounded room kept
    refine ⟨added, notices, fun tag reason => ?_⟩
    rw [mem, frontier]
    exact mem_headDrops

end Sys2Proof.Proofs
end

section
/-! LEAVE and HOLD (R116, R118, R158, R171, R173): the entry to LEAVING, the way from FAULT to DETACHED, refusals, and a command
that waits for a window's end. -/

namespace Sys2Proof.Proofs

open Sys2Proof Sys2Proof.Machine

variable {s t : State} {reason : LeaveReason} {name : Command}

/-! ## The entry to LEAVING (R116) -/

/-- A request of the responder is withdrawn. -/
theorem withdraw_responder_eq (s : State) : s.withdraw .responder = { s with
    arb := { s.arb with responder := none }
    swp := { s.swp with quietSince := (s.withdraw .responder).swp.quietSince } } := by
  unfold State.withdraw
  split
  · next absent =>
    have none : s.arb.responder = none := absent
    rw [← none]
  · rfl

/-- R119: at the entry to LEAVING the responder's request is withdrawn, and the requester's deadline stopped. -/
theorem suspendContexts_eq (s : State) : s.suspendContexts = { s with
    arb := { s.arb with responder := none }
    swp := { s.swp with quietSince := (s.withdraw .responder).swp.quietSince }
    cat := { s.cat with requester := s.suspendContexts.cat.requester } } := by
  unfold State.suspendContexts
  rw [withdraw_responder_eq]
  dsimp only
  split
  · split <;> rfl
  · rfl

/-- What the membership unit holds at the entry to LEAVING. -/
def leavingMem (s : State) (reason : LeaveReason) : Membership :=
  { s.mem with st := .leaving, presence := none, leave := some {
    reason := reason, voided := 0, timer := some (s.now + 3 * s.heartbeat), expired := false } }

/-- R116: the entry to LEAVING. -/
theorem enterLeaving_eq (s : State) (reason : LeaveReason) : s.enterLeaving reason = { s with
    mem := leavingMem s reason
    sel := (s.enterLeaving reason).sel
    arb := { s.arb with responder := none }
    swp := { s.swp with quietSince := (s.enterLeaving reason).swp.quietSince }
    cat := { s.cat with requester := (s.enterLeaving reason).cat.requester }
    port := s.port.post (.state .leaving) } := by
  unfold State.enterLeaving
  dsimp only
  rw [suspendContexts_eq]
  rfl

/-- From `s` to `t` the station has entered LEAVING, and the command that asked for it has been answered. -/
structure Departs (reason : LeaveReason) (name : Command) (s t : State) : Prop where
  same : t = { s with
    mem := leavingMem s reason
    sel := t.sel, out := t.out, arb := t.arb, swp := t.swp
    cat := { s.cat with requester := t.cat.requester }
    port := { s.port.post (.state .leaving) with phase := .ready, slot := none, response := some (.ok name) } }
  offer : t.sel.membership = some (.leave reason)
  queue : t.out.entries.map OutEntry.atRest = s.out.entries.map OutEntry.atRest
  tagCounter : t.out.tagCounter = s.out.tagCounter
  grant : t.arb.grant = s.arb.grant
  responder : t.arb.responder = none

theorem departs_enterLeaving (s : State) (reason : LeaveReason) (name : Command) :
    Departs reason name s ((s.enterLeaving reason).answer (.ok name)).settle := by
  have follows := Follows.settle ((s.enterLeaving reason).answer (.ok name))
  have left := enterLeaving_eq s reason
  have offered : (s.enterLeaving reason).sel.membership = some (.leave reason) := rfl
  generalize s.enterLeaving reason = u at *
  refine ⟨?_, ?_, ?_, ?_, ?_, ?_⟩
  · rw [follows.same, left]
    rfl
  · exact (follows.memberOffer (by simp [State.answer, Selector.offersPresence, offered])).trans offered
  · exact follows.queue.trans (by rw [left]; rfl)
  · exact follows.tagCounter.trans (by rw [left]; rfl)
  · exact follows.grant.trans (by rw [left]; rfl)
  · exact follows.responder.trans (by rw [left]; rfl)

theorem Departs.keepsFixed (h : Departs reason name s t) : s.KeepsFixed t := by
  have tag := h.tagCounter
  rw [State.KeepsFixed, h.same]
  simp [State.fixed, tag]

theorem takeLeave_group (group : s.inGroup = true) :
    s.takeLeave = (s.enterLeaving (if s.mem.faultFlag then .faultExit else .stop)).answer (.ok .leave) := if_pos group

theorem takeHold_group (group : s.inGroup = true) : s.takeHold = (s.enterLeaving .hold).answer (.ok .hold) := if_pos group

/-! ## Outside the group -/

theorem takeHold_outside (outside : s.inGroup = false) : s.takeHold = s.answer (.refusedState .hold) :=
  if_neg (by simp [outside])

theorem takeLeave_outside (outside : s.inGroup = false) (fault : s.mem.st ≠ .fault) :
    s.takeLeave = s.answer (.refusedState .leave) := by
  rw [State.takeLeave, if_neg (by simp [outside]), if_neg fault]

theorem takeLeave_fault (fault : s.mem.st = .fault) : s.takeLeave = s.detach.answer (.ok .leave) := by
  rw [State.takeLeave, if_neg (by simp [State.inGroup, fault]), if_pos fault]

/-- R42, R112: the heartbeat tick stops with the interface, at once or after the own frame's window. -/
theorem switchTo_tick (s : State) (target : RxState) :
    (s.switchTo target).mem.tick = if s.ownUnderWay then s.mem.tick else none := by
  unfold State.switchTo
  split
  · rw [finishOwn_eq]
  · rw [retune_eq]

/-- From `s` to `t` the station has come from FAULT to DETACHED, and LEAVE has been answered. -/
structure Detaches (s t : State) : Prop where
  same : t = { s with
    bus := t.bus, filter := t.filter, sel := t.sel, out := t.out, arb := t.arb, swp := t.swp
    conf := { s.conf with decision := t.conf.decision }
    mem := { s.mem with st := .detached, leave := none, tick := if s.ownUnderWay then s.mem.tick else none }
    port := { s.port.post (.state .detached) with phase := .ready, slot := none, response := some (.ok .leave) } }
  tagCounter : t.out.tagCounter = s.out.tagCounter
  off : s.ownUnderWay = false → t.bus.rx = .off

/-- R118: LEAVE in FAULT. -/
theorem takeLeave_detaches (fault : s.mem.st = .fault) : Detaches s s.takeLeave.settle := by
  have off := switchedOff_eq s
  have rx := switchedOff_rx (s := s)
  have tick : (switchedOff s).mem.tick = if s.ownUnderWay then s.mem.tick else none := switchTo_tick _ _
  have follows := Follows.settle (s.detach.answer (.ok .leave))
  rw [takeLeave_fault fault]
  rw [detach_eq] at follows ⊢
  generalize switchedOff s = u at *
  rw [tick] at off
  refine ⟨?_, follows.tagCounter.trans (by rw [off]; rfl), fun free => ?_⟩
  · rw [follows.same, off]
    rfl
  · rw [follows.same]
    exact rx free

theorem Detaches.keepsFixed (h : Detaches s t) : s.KeepsFixed t := by
  have tag := h.tagCounter
  rw [State.KeepsFixed, h.same]
  simp [State.fixed, tag]

/-! ## The commands -/

/-- A port that has shifted out other bytes posts a notice alike. -/
theorem post_sdo (p : LocalPort) (b : List Byte) (n : Notice) :
    ({ p with sdo := b } : LocalPort).post n = { p.post n with sdo := b } := by
  unfold LocalPort.post
  dsimp only
  split <;> rfl

/-- R171: LEAVE and HOLD, taken at once. -/
theorem departure_taken {c : SlotCommand} {take : State → State} (h : s.inGroup = false ∨ s.defersDeparture = false) :
    s.departure c take = (take s).settle := by
  rw [State.departure, if_neg (by rcases h with h | h <;> simp [h])]

/-- R116: LEAVE and HOLD that wait for a window's end. -/
theorem departure_deferred {c : SlotCommand} {take : State → State} (group : s.inGroup = true) (defers : s.defersDeparture = true) :
    s.departure c take = (s.setMem { s.mem with departWait := s.windowsAwaited }).working c := by
  rw [State.departure, if_pos (by simp [group, defers])]

theorem exec_leave (released : s.resetHeld = false) (idle : s.port.phase = .idle) :
    exec .leave s = .next ((s.shiftOut [] 0).departure .leave State.takeLeave) := act_transaction released idle

theorem exec_hold (released : s.resetHeld = false) (idle : s.port.phase = .idle) :
    exec .hold s = .next ((s.shiftOut [] 0).departure .hold State.takeHold) := act_transaction released idle

/-- R116, R158, R173: LEAVE or HOLD taken at once in the group. -/
theorem exec_departs {c : Instr} (released : s.resetHeld = false) (idle : s.port.phase = .idle) (group : s.inGroup = true)
    (free : s.defersDeparture = false)
    (h : (c = .leave ∧ name = .leave ∧ reason = if s.mem.faultFlag then .faultExit else .stop) ∨
      (c = .hold ∧ name = .hold ∧ reason = .hold)) :
    ∃ t, exec c s = .next t ∧ Departs reason name (s.shiftOut [] 0) t := by
  have within : (s.shiftOut [] 0).inGroup = true := group
  have free' : (s.shiftOut [] 0).defersDeparture = false := free
  have departs := departs_enterLeaving (s.shiftOut [] 0) reason name
  rcases h with ⟨rfl, rfl, rfl⟩ | ⟨rfl, rfl, rfl⟩
  · rw [exec_leave released idle, departure_taken (.inr free'), takeLeave_group within]
    exact ⟨_, rfl, departs⟩
  · rw [exec_hold released idle, departure_taken (.inr free'), takeHold_group within]
    exact ⟨_, rfl, departs⟩

/-- Settles O15, by `exec_departs`. -/
theorem leaveAndHoldBeginLeaving : Obligations.LeaveAndHoldBeginLeaving := by
  intro c name reason s released idle group grounded notBefore notOpen command
  obtain ⟨t, next, departs⟩ := exec_departs released idle (inGroup_iff.2 group)
    (defersDeparture_false.2 ⟨grounded, notBefore, notOpen⟩) command
  refine ⟨t, next, ?_, departs.offer, ?_, ?_, ?_, ?_, ?_, ?_, ?_, ?_, departs.grant, departs.responder, departs.queue⟩
  · rw [departs.same]; rfl
  · rw [departs.same, shiftOut_eq, post_sdo]
  · have fixed := departs.keepsFixed
    rw [State.KeepsFixed] at fixed ⊢
    exact fixed
  all_goals rw [departs.same]; rfl

/-- Settles O16: HOLD, and LEAVE elsewhere than in FAULT, are only answered; LEAVE in FAULT by `takeLeave_detaches`. -/
theorem leaveAndHoldOutsideTheGroup : Obligations.LeaveAndHoldOutsideTheGroup := by
  intro s released idle notSyncing notMember
  have outside : (s.shiftOut [] 0).inGroup = false := inGroup_false.2 ⟨notSyncing, notMember⟩
  have refused : ∀ a, ∃ t, .next ((s.shiftOut [] 0).answer a).settle = (.next t : Host.Outcome State Fault Refusal) ∧
      Follows { s with
        freeCount := t.freeCount
        port := { s.port with phase := .ready, slot := none, response := some a, sdo := t.port.sdo } } t := fun a => by
    have follows := Follows.settle ((s.shiftOut [] 0).answer a)
    refine ⟨_, rfl, ?_⟩
    generalize ((s.shiftOut [] 0).answer a).settle = t at *
    have same := follows.same
    rw [show t.freeCount = _ from congrArg State.freeCount same, show t.port = _ from congrArg State.port same]
    exact follows
  refine ⟨?_, fun fault => ?_, fun fault => ?_⟩
  · rw [exec_hold released idle, departure_taken (.inl outside), takeHold_outside outside]
    exact refused _
  · rw [exec_leave released idle, departure_taken (.inl outside), takeLeave_outside outside fault]
    exact refused _
  · have detaches := takeLeave_detaches (s := s.shiftOut [] 0) fault
    rw [exec_leave released idle, departure_taken (.inl outside)]
    generalize (s.shiftOut [] 0).takeLeave.settle = t at *
    refine ⟨t, rfl, ?_, detaches.off, ?_, detaches.keepsFixed, ?_, ?_, ?_, ?_, ?_⟩
    · rw [detaches.same]; rfl
    · rw [detaches.same, shiftOut_eq, post_sdo]
    all_goals rw [detaches.same]; rfl

end Sys2Proof.Proofs
end

section
/-! The peer table when a peer's frame is handed over (R56, R57, R108, R111, R113, R114): what is heard of the peer, and what the
units' work leaves of the table. -/

namespace Sys2Proof.Proofs

open Sys2Proof Sys2Proof.Machine

variable {s t u : State} {b : Batch} {f : FrameBody} {k j : Station} {p g n : Nat} {c : Check}

/-! ## One entry -/

theorem peer_setPeer (m : Membership) (k j : Station) (x : Peer) :
    (m.setPeer k x).peer j = if k = j then x else m.peer j := by
  simp [Membership.peer, Membership.setPeer, Vector.getElem_set, Fin.ext_iff]

theorem setPeer_self (m : Membership) (k : Station) : m.setPeer k (m.peer k) = m := by
  simp [Membership.setPeer, Membership.peer]

theorem peer_congr {m m' : Membership} (h : m.peers = m'.peers) (k : Station) : m.peer k = m'.peer k := by
  unfold Membership.peer
  rw [h]

/-- R111, R113, R114: the sender's entry, and PEER_CHANGE. -/
theorem peerHeard_eq (s : State) (k : Station) (f : FrameBody) : s.peerHeard k f =
    let x := (s.mem.peer k).hear f s.now
    if (s.mem.peer k).status ≠ .active ∨ f.isLeave then (s.setMem (s.mem.setPeer k x)).post (.peerChange k x.status)
    else s.setMem (s.mem.setPeer k x) := rfl

theorem peerHeard_mem : (s.peerHeard k f).mem = s.mem.setPeer k ((s.mem.peer k).hear f s.now) := by
  rw [peerHeard_eq]
  dsimp only
  split <;> rfl

theorem peerHeard_beside : (s.peerHeard k f).dir = s.dir ∧ (s.peerHeard k f).inGroup = s.inGroup := by
  rw [peerHeard_eq]
  dsimp only
  split <;> exact ⟨rfl, rfl⟩

/-! ## The divergence check (R108) -/

theorem storedCheck_eq_some {d : Directory} {x : Check} :
    d.storedCheck g = some x ↔ ∃ i, d.held g = some (.committed g i) ∧ i.check = x := by
  unfold Directory.storedCheck
  split
  · next m i held =>
    obtain rfl : m = g := ((Directory.held_eq _ _ _).1 held).2
    rw [held]
    simp
  · next other =>
    refine ⟨(nomatch ·), ?_⟩
    rintro ⟨i, held, _⟩
    exact absurd held (other g i)

/-- R108: the check carried for the record below `p` differs from the stored one at a member. -/
def Diverges (s : State) (p : Nat) (c : Check) : Prop :=
  s.inGroup = true ∧ c ≠ 0 ∧ ∃ i, s.dir.held (p - 1) = some (.committed (p - 1) i) ∧ i.check ≠ c

theorem diverges_iff : Diverges s p c ↔
    ∃ x, s.dir.storedCheck (p - 1) = some x ∧ (s.inGroup && c != 0 && x != c) = true := by
  simp only [Diverges, storedCheck_eq_some, Bool.and_eq_true, bne_iff_ne]
  constructor
  · rintro ⟨group, some, i, held, other⟩
    exact ⟨_, ⟨i, held, rfl⟩, ⟨group, some⟩, other⟩
  · rintro ⟨_, ⟨i, held, rfl⟩, ⟨group, some⟩, other⟩
    exact ⟨group, some, i, held, other⟩

theorem checkDivergence_agrees (h : ¬ Diverges s p c) : s.checkDivergence k p c = s := by
  rw [diverges_iff] at h
  unfold State.checkDivergence
  split
  · rfl
  · next x stored => rw [if_neg fun differs => h ⟨x, stored, differs⟩]

/-- R108: the divergence mark and the fault flag are set. -/
def diverged (s : State) (k : Station) (p : Nat) : State :=
  s.setMem { s.mem.setPeer k { s.mem.peer k with divergence := some (p - 1) } with faultFlag := true }

theorem checkDivergence_differs (h : Diverges s p c) : s.checkDivergence k p c =
    if (s.mem.peer k).divergence = some (p - 1) then diverged s k p else (diverged s k p).post (.divergence k (p - 1)) := by
  have flagged : ∀ m : Membership, m.st = s.mem.st → (s.setMem m).flagFault = s.setMem { m with faultFlag := true } := fun m st => by
    have group : (s.setMem m).inGroup = true := (Abides.inGroup_congr st).trans h.1
    rw [flagFault_eq, group, Bool.or_true]
    rfl
  obtain ⟨x, stored, differs⟩ := diverges_iff.1 h
  unfold State.checkDivergence
  rw [stored]
  dsimp only
  rw [if_pos differs, flagged (s.mem.setPeer k { s.mem.peer k with divergence := some (p - 1) }) rfl]
  rfl

/-- What the divergence check leaves alone. -/
theorem checkDivergence_keeps (s : State) (k : Station) (p : Nat) (c : Check) : ∃ d, (s.checkDivergence k p c).mem =
    { s.mem.setPeer k { s.mem.peer k with divergence := d } with faultFlag := (s.checkDivergence k p c).mem.faultFlag } := by
  by_cases differs : Diverges s p c
  · refine ⟨some (p - 1), ?_⟩
    rw [checkDivergence_differs differs]
    split <;> rfl
  · refine ⟨(s.mem.peer k).divergence, ?_⟩
    rw [checkDivergence_agrees differs]
    exact congrArg (fun m : Membership => { m with faultFlag := s.mem.faultFlag }) (setPeer_self s.mem k).symm

/-- What a member hears from a peer's frame: the entry, and a PRESENCE's check. -/
def heard (s : State) (k : Station) (f : FrameBody) : State :=
  match f with
  | .presence p _ c _ => (s.peerHeard k f).checkDivergence k p c
  | _ => s.peerHeard k f

/-! ## What spares the peer table -/

/-- From `s` to `t` the units have worked, but neither on the peer table nor on the fault flag; the count of the windows that a
departure waits for has stayed too. -/
structure Spares (s t : State) : Prop where
  works : Internal s t
  peers : t.mem.peers = s.mem.peers
  faultFlag : t.mem.faultFlag = s.mem.faultFlag
  departWait : t.mem.departWait = s.mem.departWait

namespace Spares

theorem of_mem (works : Internal s t) (h : t.mem = s.mem) : Spares s t := ⟨works, by rw [h], by rw [h], by rw [h]⟩

theorem refl (s : State) : Spares s s := of_mem (.refl s) rfl

theorem trans (h : Spares s t) (k : Spares t u) : Spares s u :=
  ⟨h.works.trans k.works, k.peers.trans h.peers, k.faultFlag.trans h.faultFlag, k.departWait.trans h.departWait⟩

theorem of_beside (works : Internal s t) (h : beside t = beside s) : Spares s t := of_mem works (beside_iff.1 h).2.1

theorem of_seeks (works : Internal s t) (h : Seeks s t) : Spares s t := by
  have mem : t.mem = { s.mem with st := t.mem.st } := by rw [h.same]
  exact ⟨works, by rw [mem], by rw [mem], by rw [mem]⟩

theorem ite {q : Prop} [Decidable q] {d e : Batch} (h : Spares s d.st) (k : Spares s e.st) : Spares s (if q then d else e).st := by
  split
  · exact h
  · exact k

theorem setMem {m : Membership} (peers : m.peers = s.mem.peers) (faultFlag : m.faultFlag = s.mem.faultFlag)
    (departWait : m.departWait = s.mem.departWait) : Spares s (s.setMem m) :=
  ⟨(Internal.refl s).setMem, peers, faultFlag, departWait⟩

/-! ## The catch-up unit -/

theorem recheck (b : Batch) : Spares b.st b.recheck.st := of_seeks (.recheck (.refl _)) (Pursues.refl b).recheck.seeks

theorem followGaps (b : Batch) : Spares b.st b.followGaps.st := of_seeks (.followGaps (.refl _)) (Pursues.refl b).followGaps.seeks

theorem presenceHeard (b : Batch) : Spares b.st b.presenceHeard.st :=
  of_seeks (.presenceWait (.refl _)) (Pursues.refl b).presenceHeard.seeks

theorem applyRetired (s : State) {l : List Nat} : Spares s (s.applyRetired l) :=
  of_beside (.applyRetired (.refl s)) beside_applyRetired

theorem takeFetch (s : State) : Spares s (s.takeFetch k g n) := by
  refine of_beside (.takeFetch (.refl s)) ?_
  unfold State.takeFetch
  split
  · rfl
  · exact beside_respDecide

theorem replayHeard (b : Batch) {x : Bool} : Spares b.st (b.replayHeard k g x).st := by
  refine of_mem (.replayHeard (.refl _)) ?_
  unfold Batch.replayHeard
  split
  · split <;> rfl
  · rfl

/-- R56: a LEAVE ends what the catch-up unit does with that peer. -/
theorem peerLeft (b : Batch) : Spares b.st (b.peerLeft k).st := by
  have responder : beside (b.on fun s => match s.cat.responder with
      | some r => if r.requester = k then s.endResponder else s
      | none => s).st = beside b.st := by
    rw [on_st]
    split
    · split
      · exact beside_endResponder
      · rfl
    · rfl
  have mem := (beside_iff.1 responder).2.1
  have works : Internal b.st (b.peerLeft k).st := .peerLeft (.refl _)
  unfold Batch.peerLeft at works ⊢
  dsimp only at works ⊢
  generalize (b.on fun s => match s.cat.responder with
    | some r => if r.requester = k then s.endResponder else s
    | none => s) = d at mem works ⊢
  have chased : d.timeOut.st.mem = { d.st.mem with st := d.timeOut.st.mem.st } := by
    rw [(Pursues.refl d).timeOut.seeks.same]
  split at works
  · split at works
    · split at works
      · next idle =>
        rw [if_pos idle]
        exact ⟨works, by rw [chased, mem], by rw [chased, mem], by rw [chased, mem]⟩
      · next busy =>
        rw [if_neg busy]
        exact of_mem works mem
    · exact of_mem works mem
  · exact of_mem works mem

theorem goneHeard (b : Batch) : Spares b.st (b.goneHeard k g n).st :=
  of_seeks (.goneHeard (.refl _)) (Pursues.refl b).goneHeard.seeks

/-! ## The handover -/

theorem learn_mem (s : State) :
    (s.learn n).mem = { s.mem with learned := some n, highBefore := some s.windowHigh, joinWait := none } := by
  have offered : ∀ u : State, (u.reoffer .membership (.join s.windowHigh)).mem = u.mem := fun u => by
    unfold State.reoffer
    split <;> rfl
  have journal : ∀ (u : State) (c : JournalChange), (u.journal c).mem = u.mem := fun u c => by
    rw [State.journal, postAll_eq]
    rfl
  unfold State.learn
  dsimp only
  rw [offered]
  dsimp only [setMem_mem]
  rw [journal]
  split <;> rfl

theorem learn (s : State) : Spares s (s.learn n) :=
  ⟨.learn (.refl s), by rw [learn_mem], by rw [learn_mem], by rw [learn_mem]⟩

/-- R10: what a PRESENCE teaches the directory. -/
theorem presenceTaught (s : State) : Spares (s.checkDivergence k p c) (s.presenceHeard k p c).1 := by
  refine of_mem ((Internal.refl _).journal (fun c => presence_shaped _ _ c.2) .presence fun c f => f.presence c.2) ?_
  rw [State.presenceHeard, State.journal, postAll_eq]
  rfl

/-- R56: beside the sender's entry and the divergence check the handover to a member spares the table. -/
theorem handMember (b : Batch) {x : Bool} {l : List Nat} : Spares (heard b.st k f) (b.handMember k f x l).st := by
  unfold Batch.handMember heard
  cases f with
  | presence p l c m =>
    let u := (b.st.peerHeard k (.presence p l c m)).presenceHeard k p c
    have asked := recheck (b.on fun _ => u.1.applyRetired u.2)
    exact (presenceTaught _).trans ((applyRetired u.1).trans (asked.trans (presenceHeard _)))
  | leave r => exact peerLeft (b.on fun s => s.peerHeard k (.leave r))
  | fetch r g n => exact ite (takeFetch _) (refl _)
  | gone r g n => exact ite (goneHeard (b.on fun s => s.peerHeard k (.gone r g n))) (refl _)
  | replay r g o i l => exact ite (replayHeard (b.on fun s => s.peerHeard k (.replay r g o i l))) (refl _)
  | record => exact applyRetired _
  | quiet => exact refl _
  | found => exact refl _
  | join => exact refl _

/-- R101, R103, R105: so does the handover to a station that looks for its group. -/
theorem groupHeard (b : Batch) : Spares (b.st.peerHeard k f) (b.groupHeard k f).st := by
  unfold Batch.groupHeard
  dsimp only
  generalize d_eq : (b.on fun s => s.peerHeard k f) = d
  rw [show b.st.peerHeard k f = d.st from congrArg Batch.st d_eq]
  have joins : Spares d.st (if d.st.mem.st ≠ .joining then
      (d.on fun s => (s.unoffer .membership).setMem { s.mem with listenTimer := none }).enter .joining else d).st := by
    split
    · exact ⟨(Internal.refl _).unoffer.setMem.setMem, rfl, rfl, rfl⟩
    · exact refl _
  generalize (if d.st.mem.st ≠ .joining then
      (d.on fun s => (s.unoffer .membership).setMem { s.mem with listenTimer := none }).enter .joining else d) = e at joins ⊢
  split
  · exact joins.trans (learn _)
  · split
    · exact joins.trans (setMem rfl rfl rfl)
    · exact joins

/-! ## What the window leaves to be done -/

theorem afterOutcome (b : Batch) : Spares b.st (b.afterOutcome n).st := by
  have spent : Spares b.recheck.st (if n < b.recheck.st.respSettle.dir.frontier then b.recheck.st.respSettle.endStaleWait
      else b.recheck.st.respSettle).spendNumbers := by
    refine of_beside ?_ (beside_spendNumbers.trans ?_)
    · split
      · exact (Internal.refl _).respSettle.endStaleWait.spendNumbers
      · exact (Internal.refl _).respSettle.spendNumbers
    · split
      · exact beside_endStaleWait.trans beside_respSettle
      · exact beside_respSettle
  exact ((recheck b).trans spent).trans (followGaps (b.recheck.on fun _ => _))

theorem ends (b : Batch) : Spares b.st b.flush.finishSwitch.settle := by
  have mem := (Proofs.ends b).mem
  exact ⟨(Internal.refl _).flush.finishSwitch.settle, by rw [mem], by rw [mem], by rw [mem]⟩

end Spares

end Sys2Proof.Proofs
end

section
/-! A LEAVE or HOLD that waits (R116, R171): the count of the windows that have still to end through the end of a window and a lost
arbitration, and the taking of the command. -/

namespace Sys2Proof.Proofs

open Sys2Proof Sys2Proof.Machine

variable {s t u : State} {b : Batch} {f : FrameBody} {k : Station} {w : WindowRun} {cls : Observed} {x : Bool}

/-! ## The count stands -/

/-- From `s` to `t` the count of the windows that a deferred LEAVE or HOLD waits for has stayed. -/
def Waits (s t : State) : Prop := t.mem.departWait = s.mem.departWait

namespace Waits

theorem refl (s : State) : Waits s s := rfl

theorem trans (h : Waits s t) (k : Waits t u) : Waits s u := Eq.trans k h

theorem of_mem (h : t.mem = s.mem) : Waits s t := congrArg Membership.departWait h

theorem of_beside (h : beside t = beside s) : Waits s t := of_mem (beside_iff.1 h).2.1

theorem of_seeks (h : Seeks s t) : Waits s t := by rw [h.same]; rfl

theorem of_spares (h : Spares s t) : Waits s t := h.departWait

theorem ite {q : Prop} [Decidable q] {d e : Batch} (h : Waits s d.st) (k : Waits s e.st) : Waits s (if q then d else e).st := by
  split
  · exact h
  · exact k

/-! ## The result of an own frame -/

theorem ownConfirmed (s : State) : Waits s s.ownConfirmed := by
  unfold State.ownConfirmed
  split
  · dsimp only
    split <;> rfl
  · rfl

theorem endGroupPart (b : Batch) : Waits b.st b.endGroupPart.st := by
  rw [Waits, (endGroupPart_ends b).mem]

theorem enterGroup (b : Batch) : Waits b.st b.enterGroup.st := rfl

theorem foundResult (b : Batch) : Waits b.st (b.foundResult f x).st := by
  unfold Batch.foundResult
  refine ite (refl _) (ite ?_ rfl)
  exact (of_mem (by rw [on_st, postAll_eq]; rfl)).trans (enterGroup _)

theorem joinResult (b : Batch) : Waits b.st (b.joinResult f x).st := ite (refl _) (ite rfl (ite rfl rfl))

theorem leaveResult (b : Batch) : Waits b.st (b.leaveResult x).st := by
  unfold Batch.leaveResult
  split
  · exact refl _
  · next l _ =>
    refine ite (refl _) (ite (endGroupPart b) (ite ?_ rfl))
    exact endGroupPart (b.on fun s => s.setMem { s.mem with leave := some { l with voided := l.voided + 1 } })

theorem presenceResult (s : State) : Waits s (s.presenceResult x) := by
  unfold State.presenceResult
  split <;> rfl

theorem memberResult (b : Batch) : Waits b.st (b.memberResult f x).st := by
  unfold Batch.memberResult
  split
  · exact foundResult b
  · exact joinResult b
  · exact leaveResult b
  · exact presenceResult b.st
  · exact refl _

theorem deliver (b : Batch) : Waits b.st (b.deliver cls x).st := by
  unfold Batch.deliver
  split
  · exact refl _
  · have landed : Waits b.st (if cls = .none then (b.on fun s => s.setSel { s.sel with inFlight := none }).on State.ownConfirmed
        else b.on fun s => s.setSel { s.sel with inFlight := none }).st := ite (ownConfirmed (b.st.setSel _)) rfl
    dsimp only
    generalize (if cls = .none then (b.on fun s => s.setSel { s.sel with inFlight := none }).on State.ownConfirmed
        else b.on fun s => s.setSel { s.sel with inFlight := none }) = d at landed ⊢
    refine landed.trans (ite (refl _) ?_)
    split
    · exact ite rfl rfl
    · exact memberResult d
    · exact of_seeks (Seeks.refl d.st).fetchResult
    · exact of_beside beside_respResult
    · exact of_beside (beside_finishDeparture.trans beside_recordResult)

/-! ## A peer's frame -/

theorem peerHeard (s : State) : Waits s (s.peerHeard k f) := by
  rw [Waits, peerHeard_mem]
  rfl

theorem checkDivergence (s : State) {p : Nat} {c : Check} : Waits s (s.checkDivergence k p c) := by
  obtain ⟨d, checked⟩ := checkDivergence_keeps s k p c
  rw [Waits, checked]
  rfl

theorem heard (s : State) : Waits s (heard s k f) := by
  unfold Proofs.heard
  split
  · exact (peerHeard s).trans (checkDivergence _)
  · exact peerHeard s

theorem handOn (b : Batch) {c : Option Classified} {l : List Nat} : Waits b.st (b.handOn c x l).st := by
  unfold Batch.handOn
  split
  · refine ite ?_ (ite ?_ (refl _))
    · exact (heard b.st).trans (of_spares (Spares.handMember b))
    · exact (peerHeard b.st).trans (of_spares (Spares.groupHeard b))
  · exact refl _

/-! ## The end of a window -/

theorem outcome (s : State) (cls : Observed) : Waits s (outcome s cls) := of_mem (by rw [outcome_eq])

theorem applyRetired (s : State) {l : List Nat} : Waits s (s.applyRetired l) := of_spares (.applyRetired s)

theorem afterOutcome (b : Batch) {n : Nat} : Waits b.st (b.afterOutcome n).st := of_spares (.afterOutcome b)

theorem closeOverlapping (s : State) : Waits s (s.closeOverlapping w cls).st :=
  ite ((deliver s.batch).trans (afterOutcome _)) (refl s)

end Waits

/-! ## The count at the end of a window -/

theorem enterFault_departWait : b.enterFault.st.mem.departWait = 0 := by
  rw [enterFault_eq, on_st, switchTo_eq]
  dsimp only
  rw [(leavesGroup _).mem]
  rfl

/-- R59, R118: the window's work leaves the count alone, or the station enters FAULT, which ends the wait. -/
theorem closed_departWait (s : State) (w : WindowRun) (cls : Observed) : Waits s (closed s w cls).st ∨
    (w.overlapping = false ∧ 14 < s.conf.budget ∧ (closed s w cls).st.mem.st = .fault ∧ (closed s w cls).st.mem.departWait = 0) := by
  cases judged : w.overlapping with
  | true =>
    rw [closed, if_pos judged]
    exact .inl (Waits.closeOverlapping s)
  | false =>
    rw [closed, if_neg (by simp [judged]), closeJudged_eq]
    dsimp only
    have decided := Waits.outcome s cls
    split
    · next fault =>
      refine .inr ⟨rfl, ?_, enterFault_st, enterFault_departWait⟩
      by_contra low
      exact absurd fault.2 (Nat.not_le.2 (outcome_budget (Nat.not_lt.1 low)))
    · refine .inl (.trans ?_ (Waits.afterOutcome _))
      refine .ite ?_ (.ite (decided.trans (Waits.handOn _)) decided)
      exact decided.trans ((Waits.deliver (outcome s cls).batch).trans (Waits.applyRetired _))

/-- R116: each window's end lowers the count by one. -/
theorem windowEnd_departWait {rest : List WindowRun} {lowRun : Nat} (released : s.resetHeld = false)
    (windows : s.bus.windows = w :: rest) (opened : w.opened = true) : ∃ t, exec (.windowEnd lowRun) s = .next t ∧
      (t.mem.departWait = s.mem.departWait - 1 ∨ (t.mem.st = .fault ∧ t.mem.departWait = 0)) ∧
      (w.overlapping = true ∨ s.conf.budget ≤ 14 → t.mem.departWait = s.mem.departWait - 1) := by
  obtain ⟨-, -, -, -, conf, -, -, -⟩ := closing_spec s w rest lowRun
  obtain ⟨-, -, -, -, mem⟩ := closing_beside s w rest lowRun
  have count : (closing s w rest lowRun).mem.departWait = s.mem.departWait - 1 := by rw [mem]
  have last := (ends (closed (closing s w rest lowRun) w (w.observed lowRun))).mem
  refine ⟨_, exec_windowEnd released windows opened, ?_⟩
  generalize (closed (closing s w rest lowRun) w (w.observed lowRun)).flush.finishSwitch.settle = t at last
  rw [last]
  rcases closed_departWait (closing s w rest lowRun) w (w.observed lowRun) with waits | ⟨judged, spent, fault, zero⟩
  · have lowered := Eq.trans waits count
    exact ⟨.inl lowered, fun _ => lowered⟩
  · rw [conf] at spent
    refine ⟨.inr ⟨fault, zero⟩, fun h => ?_⟩
    rcases h with overlaps | low
    · exact absurd (judged.symm.trans overlaps) (by decide)
    · omega

/-! ## A lost arbitration -/

/-- R117: what a LEAVE's end leaves to be done does not touch the count. -/
theorem Waits.leaveLost (b : Batch) : Waits b.st b.leaveLost.st := by
  unfold Batch.leaveLost
  split
  · exact ite (endGroupPart b) (refl _)
  · exact refl _

/-- A command that waited for the lost frame's window waits for none. -/
theorem arbitrationLost_departWait {r : ReceiveRecord} {f : InFlight} (released : s.resetHeld = false)
    (sending : s.sending = some r) (flying : s.sel.inFlight = some f) : ∃ t, exec .arbitrationLost s = .next t ∧ t.mem.departWait = 0 := by
  have cleared : (lostFrame s r f).mem.departWait = 0 := by rw [lostFrame_eq]
  have chased := Waits.of_seeks (Pursues.refl (lostFrame s r f).batch.leaveLost).recheck.followGaps.seeks
  refine ⟨_, exec_arbitrationLost released sending flying, ?_⟩
  generalize (lostFrame s r f).batch.leaveLost.recheck.followGaps = d at chased
  have told : Waits d.st d.flush.settle := by
    rw [Waits, (Follows.settle d.flush).same, Batch.flush, postAll_eq]
    rfl
  exact Eq.trans ((Waits.leaveLost (lostFrame s r f).batch).trans (chased.trans told)) cleared

/-! ## The command -/

theorem windowsAwaited_eq (s : State) : s.windowsAwaited = if s.sel.inFlight = none then s.bus.windows.length
    else match s.bus.windows.findIdx? WindowRun.own with
      | some i => i + 1
      | none => s.bus.windows.length + 1 := by
  unfold State.windowsAwaited
  cases s.sel.inFlight <;> rfl

/-- R171: the deferred command keeps the port WORKING. -/
theorem exec_defers {c : Instr} {k : SlotCommand} (released : s.resetHeld = false) (idle : s.port.phase = .idle)
    (group : s.inGroup = true) (defers : s.defersDeparture = true) (command : (c = .leave ∧ k = .leave) ∨ (c = .hold ∧ k = .hold)) :
    exec c s = .next (((s.shiftOut [] 0).setMem { s.mem with departWait := s.windowsAwaited }).working k) := by
  have within : (s.shiftOut [] 0).inGroup = true := group
  have defers' : (s.shiftOut [] 0).defersDeparture = true := defers
  rcases command with ⟨rfl, rfl⟩ | ⟨rfl, rfl⟩
  · rw [exec_leave released idle, departure_deferred within defers']
    rfl
  · rw [exec_hold released idle, departure_deferred within defers']
    rfl

theorem exec_deferredCommandTaken (released : s.resetHeld = false) : exec .deferredCommandTaken s = .next s.takeDeferred :=
  act_released released

theorem takeDeferred_waits (h : 0 < s.mem.departWait ∨ (s.port.slot ≠ some .leave ∧ s.port.slot ≠ some .hold)) :
    s.takeDeferred = s := by
  unfold State.takeDeferred
  split
  · rfl
  · next ready =>
    obtain ⟨notLeave, notHold⟩ := h.resolve_left ready
    split
    · next slot => exact absurd slot notLeave
    · next slot => exact absurd slot notHold
    · rfl
    · rfl

theorem takeDeferred_leave (ready : s.mem.departWait = 0) (slot : s.port.slot = some .leave) :
    s.takeDeferred = s.takeLeave.settle := by
  rw [State.takeDeferred, if_neg (by omega), slot]

theorem takeDeferred_hold (ready : s.mem.departWait = 0) (slot : s.port.slot = some .hold) :
    s.takeDeferred = s.takeHold.settle := by
  rw [State.takeDeferred, if_neg (by omega), slot]

/-- R116, R158: the deferred command, taken in the group. -/
theorem takeDeferred_departs (group : s.inGroup = true) (ready : s.mem.departWait = 0)
    (slot : s.port.slot = some .leave ∨ s.port.slot = some .hold) :
    Departs (if s.port.slot = some .hold then .hold else if s.mem.faultFlag then .faultExit else .stop)
      (if s.port.slot = some .hold then .hold else .leave) s s.takeDeferred := by
  rcases slot with leave | hold
  · rw [takeDeferred_leave ready leave, takeLeave_group group, leave]
    exact departs_enterLeaving s _ _
  · rw [takeDeferred_hold ready hold, takeHold_group group, if_pos hold, if_pos hold]
    exact departs_enterLeaving s _ _

/-- Settles O17, part by part: the deferral, the wait, each window's end, the lost arbitration, and the taking in the group and in
FAULT. -/
theorem deferredDepartureIsTakenLater : Obligations.DeferredDepartureIsTakenLater := by
  refine ⟨fun c k s released idle group busy command => ?_, fun s released waits => ?_,
    fun s w rest lowRun released windows opened => windowEnd_departWait released windows opened,
    fun s r f released frame receive own sound flying => ?_, fun s released slot group ready => ?_,
    fun s released fault ready slot => ?_, fun s released fault ready slot => ?_⟩
  · have defers : s.defersDeparture = true := defersDeparture_iff.2 busy
    refine ⟨_, exec_defers released idle (inGroup_iff.2 group) defers command, ?_⟩
    rw [windowsAwaited_eq]
    rfl
  · rw [exec_deferredCommandTaken released, takeDeferred_waits waits]
  · have sending : s.sending = some r := by simp [State.sending, receive, frame, own, sound]
    exact arbitrationLost_departWait released sending flying
  · have departs := takeDeferred_departs (inGroup_iff.2 group) ready slot
    refine ⟨_, _, exec_deferredCommandTaken released, rfl, ?_⟩
    generalize s.takeDeferred = t at *
    refine ⟨?_, departs.offer, ?_, departs.keepsFixed, ?_⟩
    · rw [departs.same]; rfl
    · rw [departs.same]
    · rw [departs.same]
      exact ⟨rfl, rfl, rfl, rfl⟩
  · have detaches := takeLeave_detaches fault
    rw [exec_deferredCommandTaken released, takeDeferred_leave ready slot]
    refine ⟨_, rfl, ?_⟩
    rw [detaches.same]
    exact ⟨rfl, rfl, rfl⟩
  · have outside : s.inGroup = false := inGroup_false.2 (by simp [fault])
    rw [exec_deferredCommandTaken released, takeDeferred_hold ready slot, takeHold_outside outside]
    exact ⟨_, rfl, .settle _⟩

end Sys2Proof.Proofs
end

section
/-! The heartbeat tick, PEER_SILENT and the frames of peers (R108, R111 to R114): what becomes of the peer entries, and the notices
that tell of it. -/

namespace Sys2Proof.Proofs

open Sys2Proof Sys2Proof.Machine

variable {s t u : State} {f : FrameBody} {k j : Station} {w : WindowRun} {n : Notice} {l : List Station} {e p : Nat} {c chk : Check}

/-! ## Notices (R179) -/

/-- A notice that a full queue has not made lost stands in the queue. -/
theorem mem_post {q : LocalPort} (room : q.lost < 255) (kept : (q.post n).lost ≤ q.lost) : n ∈ (q.post n).notices := by
  unfold LocalPort.post at kept ⊢
  split at kept
  · next free => simp [free]
  · dsimp only at kept
    omega

/-- A notice posted in the course of an event whose port has lost none is there at its end. -/
theorem postedUnlessLost_of_post {v : State} (port : v.port = s.port) (before : Internal v u) (after : Internal (u.post n) t) :
    postedUnlessLost s t n := by
  intro bounded room kept
  rw [← port] at bounded room kept
  have posting : Internal u (u.post n) := (Internal.refl u).post
  have bounded_u := before.bounded bounded
  have lost_u := before.lost bounded
  have lost_post := posting.lost bounded_u
  have lost_t := after.lost (posting.bounded bounded_u)
  have stands : n ∈ (u.port.post n).notices := mem_post (by omega) (show (u.post n).port.lost ≤ _ by omega)
  exact after.notices.subset stands

/-! ## One entry at a tick (R112) -/

/-- R112: the visit, by the count of misses so far. -/
theorem tick_eq (x : Peer) : x.tick =
    if x.status ≠ .active then x
    else if x.heard then { x with heard := false }
    else if x.missed < 2 then { x with missed := x.missed + 1 }
    else { x with missed := 3, status := .silent, quiet := none } := by
  unfold Peer.tick
  by_cases few : x.missed < 2
  · rw [if_pos few, if_neg (show ¬ 3 ≤ x.missed + 1 by omega)]
  · rw [if_neg few, if_pos (show 3 ≤ x.missed + 1 by omega)]

theorem visit_mem (s : State) (k : Station) : (s.visit k).mem = s.mem.setPeer k (s.mem.peer k).tick := by
  unfold State.visit
  dsimp only
  split <;> rfl

theorem visit_eq (s : State) (k : Station) : s.visit k = { s with
    mem := { s.mem with peers := (s.visit k).mem.peers }, port := (s.visit k).port } := by
  unfold State.visit
  dsimp only
  split <;> rfl

/-- R112: a third miss. -/
theorem visit_silences (active : (s.mem.peer k).status = .active) (unheard : (s.mem.peer k).heard = false)
    (missed : 2 ≤ (s.mem.peer k).missed) :
    s.visit k = (s.setMem (s.mem.setPeer k (s.mem.peer k).tick)).post (.peerChange k .silent) := by
  have silent : (s.mem.peer k).tick.status = .silent := by
    rw [tick_eq, if_neg (by simp [active]), if_neg (by simp [unheard]), if_neg (by omega)]
  exact if_pos ⟨active, silent⟩

/-! ## The visits of one tick -/

theorem visitAll_eq (l : List Station) (s : State) : l.foldl State.visit s = { s with
    mem := { s.mem with peers := (l.foldl State.visit s).mem.peers }, port := (l.foldl State.visit s).port } := by
  induction l generalizing s with
  | nil => rfl
  | cons k rest ih =>
    rw [List.foldl_cons, ih (s.visit k), visit_eq s k]

/-- Each entry is visited once. -/
theorem visitAll_peer (once : l.Nodup) (s : State) (j : Station) :
    (l.foldl State.visit s).mem.peer j = if j ∈ l then (s.mem.peer j).tick else s.mem.peer j := by
  induction l generalizing s with
  | nil => simp
  | cons k rest ih =>
    obtain ⟨apart, once⟩ := List.nodup_cons.1 once
    rw [List.foldl_cons, ih once, visit_mem, peer_setPeer]
    by_cases same : k = j
    · subst same
      simp [apart]
    · simp [same, Ne.symm same]

/-- R112: PEER_CHANGE(SILENT) for each entry that becomes SILENT. -/
theorem visitAll_posts {v : State} (once : l.Nodup) (i : k ∈ l) (port : v.port = s.port) (active : (v.mem.peer k).status = .active)
    (unheard : (v.mem.peer k).heard = false) (missed : 2 ≤ (v.mem.peer k).missed)
    (after : Internal (l.foldl State.visit v) t) : postedUnlessLost s t (.peerChange k .silent) := by
  obtain ⟨first, rest, rfl⟩ := List.append_of_mem i
  have apart : k ∉ first := fun i => (List.nodup_append.1 once).2.2 k i k List.mem_cons_self rfl
  have same : (first.foldl State.visit v).mem.peer k = v.mem.peer k := by
    rw [visitAll_peer (List.nodup_append.1 once).1, if_neg apart]
  rw [List.foldl_append, List.foldl_cons] at after
  have before : Internal v (first.foldl State.visit v) := .visitAll (.refl v)
  generalize first.foldl State.visit v = u at before after same
  rw [← same] at active unheard missed
  rw [visit_silences active unheard missed] at after
  exact postedUnlessLost_of_post port before.setMem (Internal.trans (.visitAll (.refl _)) after)

theorem nodup_peerNumbers (s : State) : s.peerNumbers.Nodup := List.Nodup.filter _ (by decide)

theorem mem_peerNumbers : k ∈ s.peerNumbers ↔ k ≠ s.straps.station := by
  have all : ∀ k, k ∈ allStations := by decide
  simp [State.peerNumbers, all]

/-! ## HEARTBEAT_TICK -/

/-- The tick runs on. -/
def ticking (s : State) (e : Nat) : State := (s.at e).setMem { s.mem with tick := some (e + s.heartbeat) }

/-- R112: the state after the visits. -/
def ticked (s : State) (e : Nat) : State :=
  if s.entering || s.inGroup then s.peerNumbers.foldl State.visit (ticking s e) else ticking s e

theorem exec_heartbeatTick (released : s.resetHeld = false) (due : s.mem.tick = some e) :
    exec .heartbeatTick s = .next (ticked s e).batch.finish := by
  show execHeartbeatTick s = _
  rw [execHeartbeatTick, act_released released, due]
  rfl

theorem ticked_eq (s : State) (e : Nat) : ticked s e = { s with
    now := max s.now e
    mem := { s.mem with tick := some (e + s.heartbeat), peers := (ticked s e).mem.peers }
    port := (ticked s e).port } := by
  unfold ticked
  split
  · rw [visitAll_eq]
    rfl
  · rfl

theorem ticked_within (h : s.entering = true ∨ s.inGroup = true) :
    ticked s e = s.peerNumbers.foldl State.visit (ticking s e) := if_pos (by simpa using h)

theorem ticked_peer (h : s.entering = true ∨ s.inGroup = true) (other : k ≠ s.straps.station) :
    (ticked s e).mem.peer k = (s.mem.peer k).tick := by
  rw [ticked_within h, visitAll_peer (nodup_peerNumbers s), if_pos (mem_peerNumbers.2 other)]
  rfl

theorem ticked_own (s : State) (e : Nat) : (ticked s e).mem.peer s.straps.station = s.mem.peer s.straps.station := by
  unfold ticked
  split
  · rw [visitAll_peer (nodup_peerNumbers s), if_neg fun i => mem_peerNumbers.1 i rfl]
    rfl
  · rfl

theorem ticked_outside (h : s.entering = false) (k : s.inGroup = false) : (ticked s e).mem.peers = s.mem.peers := by
  rw [ticked, if_neg (by simp [h, k])]
  rfl

/-- What follows the end of an event leaves the peer table alone. -/
theorem finish_peer (b : Batch) (j : Station) : b.finish.mem.peer j = b.st.mem.peer j := by
  rw [finish_mem]
  rfl

theorem finish_works (b : Batch) : Internal b.st b.finish := .finish (.refl _)

/-- R112: a tick at the instant `e`, with what follows. -/
structure Ticks (s : State) (e : Nat) (t : State) : Prop where
  now : t.now = max s.now e
  tick : t.mem.tick = some (e + s.heartbeat)
  bus : t.bus = s.bus
  frontier : t.dir.frontier = s.dir.frontier
  visited : s.entering = true ∨ s.inGroup = true → ∀ k, k ≠ s.straps.station → t.mem.peer k = (s.mem.peer k).tick
  silences : s.entering = true ∨ s.inGroup = true → ∀ k, k ≠ s.straps.station → (s.mem.peer k).status = .active →
    (s.mem.peer k).heard = false → 2 ≤ (s.mem.peer k).missed → postedUnlessLost s t (.peerChange k .silent)
  own : t.mem.peer s.straps.station = s.mem.peer s.straps.station
  outside : s.entering = false → s.inGroup = false → t.mem.peers = s.mem.peers

theorem ticks (s : State) (e : Nat) : Ticks s e (ticked s e).batch.finish := by
  have mem := finish_mem (ticked s e).batch
  have abides := finish_abides (ticked s e).batch
  have works : Internal (ticked s e) (ticked s e).batch.finish := finish_works (ticked s e).batch
  have peer : ∀ k, (ticked s e).batch.finish.mem.peer k = (ticked s e).mem.peer k := finish_peer _
  generalize (ticked s e).batch.finish = t at *
  have same := ticked_eq s e
  refine ⟨?_, ?_, ?_, ?_, fun within k other => ?_, fun within k other active unheard missed => ?_, ?_, fun apart outside => ?_⟩
  · exact (now_of_internal works).trans (congrArg State.now same)
  · rw [mem]
    exact congrArg (fun u : State => u.mem.tick) same
  · have bus : (ticked s e).bus = s.bus := by rw [same]
    exact (congrArg Prod.fst abides.line).trans bus
  · have dir : (ticked s e).dir = s.dir := by rw [same]
    exact abides.frontier.trans (congrArg Directory.frontier dir)
  · rw [peer, ticked_peer within other]
  · rw [ticked_within within] at works
    exact visitAll_posts (v := ticking s e) (nodup_peerNumbers s) (mem_peerNumbers.2 other) rfl active unheard missed works
  · rw [peer, ticked_own]
  · rw [mem]
    exact ticked_outside apart outside

/-! ## PEER_SILENT -/

theorem exec_peerSilent (released : s.resetHeld = false) (other : k ≠ s.straps.station)
    (active : (s.mem.peer k).status = .active) (missed : 3 ≤ (s.mem.peer k).missed) :
    exec (.peerSilent k) s = .next (s.silence k).batch.finish := by
  show execPeerSilent k s = _
  rw [execPeerSilent, act_released released]
  exact congrArg _ (if_pos ⟨other, active, missed⟩)

theorem silence_peer (s : State) (k j : Station) : (s.silence k).mem.peer j =
    if k = j then { s.mem.peer k with missed := 3, status := .silent, quiet := none } else s.mem.peer j :=
  peer_setPeer s.mem k j _

theorem silence_notices (s : State) (k : Station) (room : s.port.notices.length < 32) :
    (s.silence k).port.notices = s.port.notices ++ [.peerChange k .silent] :=
  notices_postAll_of_room [.peerChange k .silent] (s.setMem _) (by simpa using room)

/-! ## A peer's frame at the end of its window (R56, R57, R108) -/

theorem heard_works (s : State) (k : Station) (f : FrameBody) : Internal (s.peerHeard k f) (heard s k f) := by
  unfold heard
  split
  · exact (Internal.refl _).checkDivergence
  · exact .refl _

/-- Outside the group no check is made. -/
theorem heard_outside (outside : s.inGroup = false) : heard s k f = s.peerHeard k f := by
  have agrees : ∀ p c, ¬ Diverges (s.peerHeard k f) p c := fun p c differs => by
    rw [Diverges, peerHeard_beside.2, outside] at differs
    exact absurd differs.1 (by decide)
  unfold heard
  split
  · exact checkDivergence_agrees (agrees _ _)
  · rfl

theorem heard_other (s : State) (f : FrameBody) (other : j ≠ k) : (heard s k f).mem.peer j = s.mem.peer j := by
  have same : (s.peerHeard k f).mem.peer j = s.mem.peer j := by rw [peerHeard_mem, peer_setPeer, if_neg other.symm]
  unfold heard
  split
  · next p l c m =>
    obtain ⟨d, checked⟩ := checkDivergence_keeps (s.peerHeard k (.presence p l c m)) k p c
    rw [checked]
    exact (peer_setPeer _ k j _).trans ((if_neg other.symm).trans same)
  · exact same

/-- The sender's entry: a PRESENCE's check may mark it. -/
theorem heard_self (s : State) (k : Station) (f : FrameBody) :
    (heard s k f).mem.peer k = { (s.mem.peer k).hear f s.now with divergence := ((heard s k f).mem.peer k).divergence } := by
  have own : (s.peerHeard k f).mem.peer k = (s.mem.peer k).hear f s.now := by rw [peerHeard_mem, peer_setPeer, if_pos rfl]
  unfold heard
  split
  · next p l c m =>
    obtain ⟨d, checked⟩ := checkDivergence_keeps (s.peerHeard k (.presence p l c m)) k p c
    have marked : ((s.peerHeard k (.presence p l c m)).checkDivergence k p c).mem.peer k =
        { (s.peerHeard k (.presence p l c m)).mem.peer k with divergence := d } := by
      rw [checked]
      exact (peer_setPeer _ k k _).trans (if_pos rfl)
    rw [marked, own]
  · rw [own]

/-- Only a PRESENCE is checked. -/
theorem heard_unchecked (h : ∀ p l c m, f ≠ .presence p l c m) : (heard s k f).mem.peer k = (s.mem.peer k).hear f s.now := by
  have plain : heard s k f = s.peerHeard k f := by
    unfold heard
    split
    · exact absurd rfl (h _ _ _ _)
    · rfl
  rw [plain, peerHeard_mem, peer_setPeer, if_pos rfl]

/-- R113, R114: PEER_CHANGE. -/
theorem peerHeard_posts (h : (s.mem.peer k).status ≠ .active ∨ f.isLeave = true) : s.peerHeard k f =
    (s.setMem (s.mem.setPeer k ((s.mem.peer k).hear f s.now))).post (.peerChange k ((s.mem.peer k).hear f s.now).status) := by
  rw [peerHeard_eq]
  exact if_pos h

/-- From `s` on, at the end of the window of a peer's frame to which nobody objects, the sender is heard in a state `v` that
differs from `s` in the time alone, as far as the peer table is concerned, and nothing else touches the table. -/
structure HeardAt (s : State) (due : Nat) (k : Station) (f : FrameBody) (v t : State) : Prop where
  now : v.now = max s.now due
  mem : v.mem = { s.mem with departWait := s.mem.departWait - 1 }
  dir : v.dir = s.dir
  port : v.port = s.port
  rest : Spares (heard v k f) t

/-- The outcome of a frame without a pending entry. -/
theorem outcome_alone (alone : ∀ d, s.conf.decision = some d → d.hasEntry = false) :
    (outcome s .none).dir = s.dir ∧ (outcome s .none).port = s.port := by
  have none := applyOutcome_alone (s := s.setFilter { s.filter with window := none }) alone
  unfold outcome
  rw [decide_eq_true rfl, none, countBudget_eq]
  exact ⟨rfl, rfl⟩

/-- What the closing of a window makes of what the peer table and the handover depend on. -/
theorem afterClosing_beside (s : State) (w : WindowRun) (rest : List WindowRun) : let u := afterClosing s w rest
    u.filter = s.filter ∧ u.conf = s.conf ∧
    u.mem = { s.mem with departWait := s.mem.departWait - 1 } ∧
    u.now = max s.now w.due ∧ u.dir = s.dir ∧ u.port = s.port := by
  dsimp only
  rw [afterClosing_eq]
  exact ⟨rfl, rfl, rfl, rfl, rfl, rfl⟩

theorem handOn_heard {b : Batch} {sc : Scope} {x : Bool} {l : List Nat} (h : b.st.inGroup = true ∨ b.st.entering = true) :
    Spares (heard b.st k f) (b.handOn (some (.sound k f chk sc)) x l).st := by
  unfold Batch.handOn
  dsimp only
  by_cases group : b.st.inGroup = true
  · rw [if_pos group]
    exact .handMember b
  · rw [if_neg group, if_pos (h.resolve_left group), heard_outside (by simpa using group)]
    exact .groupHeard b

/-- The end of a window of a frame to which nobody objects. -/
theorem exec_windowEnds_sound (h : windowEnds s w) (pulled : w.pulled = 0) : ∃ rest, exec (.windowEnd 0) s =
    .next (closed (afterClosing s w rest) w .none).flush.finishSwitch.settle := by
  obtain ⟨rest, next⟩ := exec_windowEnds (lowRun := 0) h
  obtain ⟨-, -, -, single, -⟩ := h
  have none : w.observed 0 = .none := by simp [WindowRun.observed, pulled, observedOf]
  have sound : closing s w rest 0 = afterClosing s w rest := if_neg (by simp [WindowRun.faultyRun, single])
  rw [none, sound] at next
  exact ⟨rest, next⟩

/-- The peer's frame is handed over, then the unit's work is done. -/
theorem closed_heard {sc : Scope} (single : w.overlapping = false) (peer : w.own = false) (budget : s.conf.budget ≤ 14)
    (frame : s.filter.window = some (.sound k f chk sc)) (within : s.inGroup = true ∨ s.entering = true) :
    Spares (heard (outcome s .none) k f) (closed s w .none).flush.finishSwitch.settle := by
  obtain ⟨-, -, -, mem, -⟩ := outcome_beside s .none
  have group : (outcome s .none).inGroup = s.inGroup := Abides.inGroup_congr (by rw [mem])
  have entering : (outcome s .none).entering = s.entering := by rw [State.entering, mem, State.entering]
  have handed : ∀ x l, Spares (heard (outcome s .none) k f)
      ((outcome s .none).batch.handOn (some (.sound k f chk sc)) x l).st := fun x l =>
    handOn_heard (b := (outcome s .none).batch) (within.imp group.trans entering.trans)
  rw [closed_peer single peer budget, if_pos rfl, frame]
  generalize State.applyOutcome _ _ = o
  exact (handed o.filled o.retired).trans ((Spares.afterOutcome _).trans (Spares.ends _))

theorem exec_peerFrameEnds {sc : Scope} (h : peerFrameEnds s w (.sound k f chk sc))
    (within : s.inGroup = true ∨ s.entering = true) :
    ∃ v t, exec (.windowEnd 0) s = .next t ∧ HeardAt s w.due k f v t := by
  obtain ⟨window, peer, pulled, frame, alone⟩ := h
  obtain ⟨rest, next⟩ := exec_windowEnds_sound window pulled
  obtain ⟨-, -, -, single, budget⟩ := window
  obtain ⟨filter, conf, mem, now, dir, port⟩ := afterClosing_beside s w rest
  generalize afterClosing s w rest = u at *
  obtain ⟨dir', port'⟩ := outcome_alone (s := u) (by rw [conf]; exact alone)
  obtain ⟨-, -, -, mem', now', -⟩ := outcome_beside u .none
  have group : u.inGroup = s.inGroup := Abides.inGroup_congr (by rw [mem])
  have entering : u.entering = s.entering := by rw [State.entering, mem, State.entering]
  exact ⟨outcome u .none, _, next, now'.trans now, mem'.trans mem, dir'.trans dir, port'.trans port,
    closed_heard single peer (by rw [conf]; exact budget) (by rw [filter]; exact frame) (within.imp group.trans entering.trans)⟩

namespace HeardAt

variable {due : Nat} {v : State}

theorem works (h : HeardAt s due k f v t) : Internal (v.peerHeard k f) t := (heard_works v k f).trans h.rest.works

theorem peer_v (h : HeardAt s due k f v t) (j : Station) : v.mem.peer j = s.mem.peer j := peer_congr (by rw [h.mem]) j

theorem peer_t (h : HeardAt s due k f v t) (j : Station) : t.mem.peer j = (heard v k f).mem.peer j := peer_congr h.rest.peers j

theorem now_t (h : HeardAt s due k f v t) : t.now = max s.now due :=
  (now_of_internal (Internal.trans (.peerHeard (.refl v)) h.works)).trans h.now

theorem other (h : HeardAt s due k f v t) (apart : j ≠ k) : t.mem.peer j = s.mem.peer j := by
  rw [h.peer_t, heard_other v f apart, h.peer_v]

/-- The sender's entry: a PRESENCE's check may mark it. -/
theorem self (h : HeardAt s due k f v t) :
    t.mem.peer k = { (s.mem.peer k).hear f t.now with divergence := (t.mem.peer k).divergence } := by
  have entry := heard_self v k f
  rw [h.peer_v, h.now, ← h.now_t, ← h.peer_t] at entry
  exact entry

theorem self_unchecked (h : HeardAt s due k f v t) (plain : ∀ p l c m, f ≠ .presence p l c m) :
    t.mem.peer k = (s.mem.peer k).hear f t.now := by
  have entry := heard_unchecked (s := v) (k := k) plain
  rw [h.peer_v, h.now, ← h.now_t, ← h.peer_t] at entry
  exact entry

/-- R113, R114: PEER_CHANGE with the status the entry then has. -/
theorem peerChange (h : HeardAt s due k f v t) (change : (s.mem.peer k).status ≠ .active ∨ f.isLeave = true) :
    postedUnlessLost s t (.peerChange k (t.mem.peer k).status) := by
  have works := h.works
  rw [peerHeard_posts (by rw [h.peer_v]; exact change), h.peer_v, h.now, ← h.now_t] at works
  rw [h.self]
  exact postedUnlessLost_of_post h.port (Internal.refl v).setMem works

end HeardAt

/-! ## The check of a PRESENCE (R108) -/

section

variable {due low : Nat} {m : Bool} {v : State}

/-- R108: the check is made against the record as it stood before the window's end. -/
theorem HeardAt.diverges_iff (h : HeardAt s due k f v t) : Diverges (v.peerHeard k f) p c ↔ Diverges s p c := by
  have group : v.inGroup = s.inGroup := Abides.inGroup_congr (by rw [h.mem])
  rw [Diverges, Diverges, peerHeard_beside.1, peerHeard_beside.2, h.dir, group]

/-- The mark of the sender before its PRESENCE is checked. -/
theorem HeardAt.unmarked (h : HeardAt s due k f v t) :
    ((v.peerHeard k (.presence p low c m)).mem.peer k).divergence = (s.mem.peer k).divergence := by
  rw [peerHeard_mem, peer_setPeer, if_pos rfl, h.peer_v]
  rfl

/-- R108: the check differs. -/
theorem HeardAt.presence_differs (h : HeardAt s due k (.presence p low c m) v t) (differs : Diverges s p c) :
    (t.mem.peer k).divergence = some (p - 1) ∧ t.mem.faultFlag = true ∧
      ((s.mem.peer k).divergence ≠ some (p - 1) → postedUnlessLost s t (.divergence k (p - 1))) := by
  have marks := checkDivergence_differs (k := k) (h.diverges_iff.2 differs)
  have heard_eq : heard v k (.presence p low c m) = (v.peerHeard k (.presence p low c m)).checkDivergence k p c := rfl
  have before : Internal v (diverged (v.peerHeard k (.presence p low c m)) k p) := (Internal.refl v).peerHeard.setMem
  have mem : (heard v k (.presence p low c m)).mem = (diverged (v.peerHeard k (.presence p low c m)) k p).mem := by
    rw [heard_eq, marks]
    split <;> rfl
  refine ⟨?_, ?_, fun unmarked => ?_⟩
  · rw [h.peer_t, mem]
    exact congrArg Peer.divergence ((peer_setPeer _ k k _).trans (if_pos rfl))
  · rw [h.rest.faultFlag, mem]
    rfl
  · have works := h.rest.works
    rw [heard_eq, marks, if_neg (by rw [h.unmarked]; exact unmarked)] at works
    exact postedUnlessLost_of_post h.port before works

/-- R108: the check agrees, or none is made. -/
theorem HeardAt.presence_agrees (h : HeardAt s due k (.presence p low c m) v t) (agrees : ¬ Diverges s p c) :
    (t.mem.peer k).divergence = (s.mem.peer k).divergence ∧ t.mem.faultFlag = s.mem.faultFlag := by
  have keeps : heard v k (.presence p low c m) = v.peerHeard k (.presence p low c m) :=
    checkDivergence_agrees fun differs => agrees (h.diverges_iff.1 differs)
  refine ⟨?_, ?_⟩
  · rw [h.peer_t, keeps, h.unmarked]
  · have flag : v.mem.faultFlag = s.mem.faultFlag := by rw [h.mem]
    rw [h.rest.faultFlag, keeps, peerHeard_mem]
    exact flag

end

/-! ## The statement -/

/-- Settles O38: the tick by `visitAll_peer`, PEER_SILENT by its one entry, and a peer's frame by `exec_peerFrameEnds`. -/
theorem heartbeatTicksCountMisses : Obligations.HeartbeatTicksCountMisses := by
  refine ⟨fun s released => ⟨fun e due => ?_, fun k other active missed => ?_⟩, fun s w k b chk sc h within other => ?_⟩
  · have next := exec_heartbeatTick released due
    have ticks := ticks s e
    generalize (ticked s e).batch.finish = t at *
    refine ⟨t, next, ticks.now, ticks.tick, keepsFixed_of_works heartbeatTick_works next, ticks.bus, ticks.frontier,
      fun within k other => ⟨?_, ticks.silences within k other⟩, ticks.own, ticks.outside⟩
    exact (ticks.visited within k other).trans (tick_eq _)
  · have next := exec_peerSilent released other active missed
    have abides := finish_abides (s.silence k).batch
    have works : Internal (s.silence k) (s.silence k).batch.finish := finish_works (s.silence k).batch
    have peer : ∀ j, (s.silence k).batch.finish.mem.peer j = (s.silence k).mem.peer j := finish_peer _
    generalize (s.silence k).batch.finish = t at *
    refine ⟨t, next, ?_, fun room => ?_, fun j apart => ?_, keepsFixed_of_works (peerSilent_works k) next, ?_,
      congrArg Prod.fst abides.line⟩
    · rw [peer, silence_peer, if_pos rfl]
    · rw [← silence_notices s k room]
      exact works.notices
    · rw [peer, silence_peer, if_neg apart.symm]
    · have now : (s.silence k).now = s.now := rfl
      exact (now_of_internal works).trans now
  · obtain ⟨v, t, next, heard⟩ := exec_peerFrameEnds h within
    refine ⟨t, next, heard.now_t, fun j apart => heard.other apart, ?_, heard.peerChange, ?_⟩
    · cases b with
      | presence => exact heard.self
      | _ => exact heard.self_unchecked (by simp)
    · rintro p l c m rfl
      exact ⟨heard.presence_differs, heard.presence_agrees⟩

end Sys2Proof.Proofs
end

section
/-! The responder's part of the catch-up unit (R119, R134 to R136, R142): a FETCH that is taken, and the grant and the completion of
the responder's read. -/

namespace Sys2Proof.Proofs

open Sys2Proof Sys2Proof.Machine

variable {s t : State} {b : Batch} {w : WindowRun} {r : ResponderCtx} {f : FrameBody} {d : Directory} {k : Station}
  {g n first count : Nat} {chk : Check} {sc : Scope} {who other : PortClient} {q : Request} {i : RecordInfo}

/-! ## The stretch of a GONE (R135) -/

/-- The leading part of a range on which a test holds is the longest one. -/
theorem takeWhile_range' (p : Nat → Bool) (a n : Nat) : let m := ((List.range' a n).takeWhile p).length
    (∀ i < m, p (a + i) = true) ∧ m ≤ n ∧ (m < n → p (a + m) = false) := by
  induction n generalizing a with
  | zero => simp
  | succ n ih =>
    rw [List.range'_succ, List.takeWhile_cons]
    cases holds : p a with
    | false => simp [holds]
    | true =>
      obtain ⟨within, bound, stops⟩ := ih (a + 1)
      simp only [if_true, List.length_cons]
      generalize ((List.range' (a + 1) n).takeWhile p).length = m at within bound stops
      refine ⟨fun i lt => ?_, by omega, fun lt => ?_⟩
      · cases i with
        | zero => exact holds
        | succ i =>
          rw [Nat.add_comm i 1, ← Nat.add_assoc]
          exact within i (by omega)
      · rw [Nat.add_comm m 1, ← Nat.add_assoc]
        exact stops (by omega)

/-- R135: a GONE that the responder offers spans the longest stretch that is not held. -/
theorem goneFrom_longest (d : Directory) (k : Station) (first last : Nat) :
    ∃ n, d.goneFrom k first last = .gone k first n ∧ (first ≤ last → longestGone d first last n) := by
  obtain ⟨within, bound, stops⟩ := takeWhile_range' (fun g => (d.lookup g).notHeld) first (last + 1 - first)
  exact ⟨((List.range' first (last + 1 - first)).takeWhile fun g => (d.lookup g).notHeld).length, rfl,
    fun le => ⟨within, by omega, fun more => stops (by omega)⟩⟩

/-! ## The responder through the rest of an event -/

/-- What a responder has: its context, its offer and its request at the array port. -/
def responderPart (s : State) : Option ResponderCtx × Option FrameBody × Option Request :=
  (s.cat.responder, s.sel.responder, s.arb.responder)

theorem responderPart_iff : responderPart t = responderPart s ↔ t.cat.responder = s.cat.responder ∧
    t.sel.responder = s.sel.responder ∧ t.arb.responder = s.arb.responder := by simp [responderPart]

theorem spendNumbers_arb : s.spendNumbers.arb = s.arb := by
  unfold State.spendNumbers
  split
  · rfl
  · rw [dropAll_eq]
    rfl

theorem endStaleWait_arb : s.endStaleWait.arb = s.arb := by
  unfold State.endStaleWait
  repeat' split
  all_goals rfl

theorem arb_of_seeks (h : Seeks s t) : t.arb = s.arb := by rw [h.same]

/-- What a window leaves to be done leaves the array port alone, where the responder does not wait for its slot. -/
theorem afterOutcome_arb (idle : ∀ q, b.st.cat.responder = some q → q.phase ≠ .settling) (n : Nat) :
    (b.afterOutcome n).st.arb = b.st.arb := by
  have rechecked := (Pursues.refl b).recheck.seeks
  have context : b.recheck.st.cat.responder = b.st.cat.responder := by rw [rechecked.same]
  have settled : b.recheck.st.respSettle = b.recheck.st := respSettle_idle (by rw [context]; exact idle)
  have woken : ∀ u : State, (if n < u.dir.frontier then u.endStaleWait else u).arb = u.arb := fun u => by
    split
    · exact endStaleWait_arb
    · rfl
  show (Batch.followGaps _).st.arb = _
  rw [arb_of_seeks (Pursues.refl _).followGaps.seeks, on_st, spendNumbers_arb, woken, settled]
  exact arb_of_seeks rechecked

/-- A responder that does not wait for its slot is left alone by what a window leaves to be done. -/
theorem responderPart_afterOutcome (idle : ∀ q, b.st.cat.responder = some q → q.phase ≠ .settling) (n : Nat) :
    responderPart (b.afterOutcome n).st = responderPart b.st := by
  obtain ⟨context, offer⟩ := afterOutcome_responder idle n
  exact responderPart_iff.2 ⟨context, offer, by rw [afterOutcome_arb idle]⟩

theorem responderPart_settle (s : State) : responderPart s.settle = responderPart s := by
  have follows := Follows.settle s
  exact responderPart_iff.2 ⟨by rw [follows.same], follows.responseOffer, follows.responder⟩

/-- The end of the event leaves the responder alone too. -/
theorem responderPart_ends (b : Batch) : responderPart b.flush.finishSwitch.settle = responderPart b.st := by
  have switched : ∀ u : State, responderPart u.finishSwitch = responderPart u := fun u => by rw [finishSwitch_eq]; rfl
  have posted : responderPart b.flush = responderPart b.st := by rw [Batch.flush, postAll_eq]; rfl
  rw [responderPart_settle, switched, posted]

/-! ## A FETCH (R134) -/

theorem takeFetch_present (h : s.cat.responder = some r) : s.takeFetch k first count = s := by rw [State.takeFetch, h]

theorem takeFetch_absent (h : s.cat.responder = none) : s.takeFetch k first count = s.respDecide
    { requester := k, next := first, last := first + count - 1, retries := 0, phase := .deciding } := by
  rw [State.takeFetch, h]

/-- R135: a next GSN that is not held is answered with GONE. -/
theorem respDecide_notHeld (group : s.inGroup = true) (h : (s.dir.lookup r.next).notHeld = true) :
    s.respDecide r = s.offerResponse r (s.dir.goneFrom r.requester r.next r.last) := by
  rw [State.respDecide, group, h]
  rfl

/-- R135: any other is to be read. -/
theorem respDecide_held (group : s.inGroup = true) (h : (s.dir.lookup r.next).notHeld = false) :
    s.respDecide r = (s.setResponder (some { r with phase := .reading none })).place .responder 4 := by
  rw [State.respDecide, group, h]
  rfl

/-- A FETCH leaves no context that waits for its slot, unless one was there before. -/
theorem takeFetch_idle (group : s.inGroup = true) (idle : ∀ q, s.cat.responder = some q → q.phase ≠ .settling) :
    ∀ q, (s.takeFetch k first count).cat.responder = some q → q.phase ≠ .settling := by
  cases present : s.cat.responder with
  | some r =>
    rw [takeFetch_present present]
    exact idle
  | none =>
    rw [takeFetch_absent present]
    obtain ⟨q, context, _, _, _, _, busy⟩ := respDecide_responder s
      { requester := k, next := first, last := first + count - 1, retries := 0, phase := .deciding } group
    intro p h
    obtain rfl : q = p := Option.some.inj (context.symm.trans h)
    exact busy

/-- R134, R135: the context that a FETCH forms, by the class of its first GSN. -/
theorem takeFetch_forms (group : s.inGroup = true) (absent : s.cat.responder = none) (pos : 1 ≤ count) :
    ∃ r, (s.takeFetch k first count).cat.responder = some r ∧ r.requester = k ∧ r.next = first ∧
      r.last = first + count - 1 ∧ r.retries = 0 ∧
      if (s.dir.lookup first).notHeld then ∃ n, longestGone s.dir first r.last n ∧ r.phase = .offered (.gone k first n) ∧
        (s.takeFetch k first count).sel.responder = some (.gone k first n)
      else r.phase = .reading none ∧ ∃ q, (s.takeFetch k first count).arb.responder = some q ∧ q.rank = 4 := by
  rw [takeFetch_absent absent]
  cases lookup : (s.dir.lookup first).notHeld with
  | true =>
    rw [respDecide_notHeld group lookup]
    obtain ⟨n, gone, longest⟩ := goneFrom_longest s.dir k first (first + count - 1)
    dsimp only
    rw [gone]
    obtain ⟨context, offer⟩ := offerResponse_responder (s := s) (f := .gone k first n)
      (r := { requester := k, next := first, last := first + count - 1, retries := 0, phase := .deciding })
    exact ⟨_, context, rfl, rfl, rfl, rfl, n, longest (by omega), rfl, offer⟩
  | false =>
    rw [respDecide_held group lookup]
    exact ⟨_, rfl, rfl, rfl, rfl, rfl, rfl, _, rfl, rfl⟩

/-- R56: a peer's FETCH to this station is handed to the responder. -/
theorem handOn_fetch {x : Bool} {l : List Nat} (group : b.st.inGroup = true) :
    b.handOn (some (.sound k (.fetch b.st.straps.station first count) chk sc)) x l =
      b.on fun s => (s.peerHeard k (.fetch b.st.straps.station first count)).takeFetch k first count := by
  have straps : ∀ f, (b.st.peerHeard k f).straps = b.st.straps := fun f => by
    rw [peerHeard_eq]
    dsimp only
    split <;> rfl
  unfold Batch.handOn Batch.handMember
  dsimp only
  rw [if_pos group, on_st, straps, if_pos rfl, on_on]

theorem peerHeard_cat : (s.peerHeard k f).cat = s.cat := by
  rw [peerHeard_eq]
  dsimp only
  split <;> rfl

/-- R134: the FETCH is taken in a state with the directory and the responder as they were, and what follows leaves the responder
alone. -/
theorem exec_fetchEnds (h : peerFrameEnds s w (.sound k (.fetch s.straps.station first count) chk sc))
    (group : s.mem.st = .syncing ∨ s.mem.st = .member) : ∃ u t : State, exec (.windowEnd 0) s = .next t ∧ t.now = max s.now w.due ∧
      u.inGroup = true ∧ u.dir = s.dir ∧ u.cat.responder = s.cat.responder ∧
      ((∀ q, s.cat.responder = some q → q.phase ≠ .settling) →
        responderPart t = responderPart (u.takeFetch k first count)) := by
  obtain ⟨window, peer, pulled, frame, alone⟩ := h
  obtain ⟨rest, next⟩ := exec_windowEnds_sound window pulled
  obtain ⟨-, -, -, single, budget⟩ := window
  obtain ⟨filter, conf, mem, now, dir, -⟩ := afterClosing_beside s w rest
  have closedNow := closed_now (afterClosing s w rest) w .none
  have straps : (afterClosing s w rest).straps = s.straps := by rw [afterClosing_eq]
  have cat : (afterClosing s w rest).cat = s.cat := by rw [afterClosing_eq]
  generalize afterClosing s w rest = u at *
  obtain ⟨dir', -⟩ := outcome_alone (s := u) (by rw [conf]; exact alone)
  obtain ⟨-, cat', -, mem', -, straps', -⟩ := outcome_beside u .none
  have result := closed_peer (cls := .none) single peer (by rw [conf]; exact budget)
  rw [if_pos rfl, filter, frame] at result
  generalize State.applyOutcome _ _ = o at result
  generalize outcome u .none = v at *
  have within : v.inGroup = true := inGroup_iff.2 (by rw [mem', mem]; exact group)
  have station : s.straps.station = v.batch.st.straps.station := by
    show _ = v.straps.station
    rw [straps', straps]
  rw [station, handOn_fetch within] at result
  refine ⟨v.peerHeard k (.fetch v.batch.st.straps.station first count), _, next, closedNow.trans now,
    peerHeard_beside.2.trans within, ?_, ?_, fun idle => ?_⟩
  · rw [peerHeard_beside.1, dir', dir]
  · rw [peerHeard_cat, cat', cat]
  · rw [responderPart_ends, result]
    refine responderPart_afterOutcome (takeFetch_idle (peerHeard_beside.2.trans within) ?_) _
    rw [peerHeard_cat, cat', cat]
    exact idle

/-- R134, R135: a confirmed FETCH to this station. -/
theorem fetch_windowEnd (h : peerFrameEnds s w (.sound k (.fetch s.straps.station first count) chk sc))
    (group : s.mem.st = .syncing ∨ s.mem.st = .member) : ∃ t, exec (.windowEnd 0) s = .next t ∧ t.now = max s.now w.due ∧
      (∀ r, s.cat.responder = some r → r.phase ≠ .settling → t.cat.responder = some r) ∧
      (s.cat.responder = none → 1 ≤ count → ∃ r, t.cat.responder = some r ∧ r.requester = k ∧ r.next = first ∧
        r.last = first + count - 1 ∧ r.retries = 0 ∧
        (if (s.dir.lookup first).notHeld then ∃ n, longestGone s.dir first r.last n ∧
          r.phase = .offered (.gone k first n) ∧ t.sel.responder = some (.gone k first n)
        else r.phase = .reading none ∧ ∃ q, t.arb.responder = some q ∧ q.rank = 4)) := by
  obtain ⟨u, t, next, now, within, dir, context, rest⟩ := exec_fetchEnds h group
  refine ⟨t, next, now, fun r present busy => ?_, fun absent pos => ?_⟩
  · obtain ⟨kept, -⟩ := responderPart_iff.1 (rest fun q h => by
      obtain rfl : r = q := Option.some.inj (present.symm.trans h)
      exact busy)
    rw [kept, takeFetch_present (context.trans present), context, present]
  · obtain ⟨kept, offer, request⟩ := responderPart_iff.1 (rest fun q h => by rw [absent] at h; cases h)
    rw [kept, offer, request, ← dir]
    exact takeFetch_forms within (context.trans absent) pos

/-! ## The grant (R136, R141, R142) -/

/-- R141: the others' requests have waited through the grant. -/
theorem granting_request_other {a : Arbiter} (h : other ≠ who) :
    (a.granting who).request other = (a.request other).map Request.passedOver := by
  cases who <;> cases other <;> first | rfl | exact absurd rfl h

/-- R141: while a request of another block than the writer waits that has waited through a grant, all are granted by rank, with
what follows by itself. -/
theorem grantsByRank_settle (apart : other ≠ .writer) (h : s.arb.request other = some q) (passed : q.atFree = false) :
    grantsByRank s.settle := by
  obtain ⟨p, settled, free⟩ := settle_request apart h
  exact grantsByRank_of_passedOver settled (free.trans passed)

theorem offerResponse_arb : (s.offerResponse r f).arb = s.arb := by
  unfold State.offerResponse State.reoffer
  split <;> rfl

/-- R136: a COMMITTED record is read from its cell. -/
theorem judgeReplay_committed (h : s.dir.lookup r.next = .committed i) : s.judgeReplay r = s.takeGrant .responder
    (.replayRead (.replay r.requester r.next i.origin i.tag (s.readCell r.next i)) true) none := by
  rw [State.judgeReplay, h]

/-- R136: for FILLING and TENTATIVE the context settles. -/
theorem judgeReplay_settles (h : s.dir.lookup r.next = .filling ∨ ∃ i, s.dir.lookup r.next = .tentative i) :
    s.judgeReplay r = (s.giveUpGrant .responder).setResponder (some { r with phase := .settling }) := by
  rcases h with h | ⟨i, h⟩ <;> rw [State.judgeReplay, h]

/-- R136: any other class is answered with GONE. -/
theorem judgeReplay_notHeld (h : (s.dir.lookup r.next).notHeld = true) : s.judgeReplay r =
    (s.giveUpGrant .responder).offerResponse r (s.dir.goneFrom r.requester r.next r.last) := by
  unfold State.judgeReplay
  split
  · next held => rw [held] at h; cases h
  · next held => rw [held] at h; cases h
  · next held => rw [held] at h; cases h
  · rfl

/-- The three ways in which a read is judged. -/
theorem judged_cases (s : State) (r : ResponderCtx) : (∃ i, s.dir.lookup r.next = .committed i) ∨
    (s.dir.lookup r.next = .filling ∨ ∃ i, s.dir.lookup r.next = .tentative i) ∨ (s.dir.lookup r.next).notHeld = true := by
  cases s.dir.lookup r.next <;> simp [LookupClass.notHeld]

/-- The judgement takes the request of the responder away, and beside the array port it changes the responder alone. -/
theorem judgeReplay_eq (s : State) (r : ResponderCtx) : ∃ g c x, s.judgeReplay r =
    { s.withArb { s.arb.granting .responder with grant := g } with
      cat := { s.cat with responder := c }
      sel := x } := by
  rcases judged_cases s r with ⟨i, held⟩ | waits | gone
  · rw [judgeReplay_committed held]
    exact ⟨_, s.cat.responder, s.sel, rfl⟩
  · rw [judgeReplay_settles waits]
    exact ⟨s.arb.grant, _, s.sel, rfl⟩
  · rw [judgeReplay_notHeld gone]
    unfold State.offerResponse State.reoffer
    split
    · exact ⟨s.arb.grant, _, s.sel, rfl⟩
    · exact ⟨s.arb.grant, _, _, rfl⟩

theorem exec_replayReadGrant (released : s.resetHeld = false) (present : s.cat.responder = some r)
    (reading : r.phase = .reading none) (grantable : s.grantable .responder = true) :
    exec .replayReadGrant s = .next (s.judgeReplay r).settle := by
  show execReplayReadGrant s = _
  rw [execReplayReadGrant, act_released released, present]
  simp only [reading, grantable, and_self, if_true]

/-- What the responder's grant leaves alone. -/
theorem judgeReplay_settle (s : State) (r : ResponderCtx) : let t := (s.judgeReplay r).settle
    t.now = s.now ∧ t.dir = s.dir ∧ t.bus = s.bus ∧ t.conf = s.conf ∧ t.mem = s.mem ∧ t.port = s.port := by
  obtain ⟨g, c, x, judged⟩ := judgeReplay_eq s r
  dsimp only
  rw [(Follows.settle (s.judgeReplay r)).same, judged]
  exact ⟨rfl, rfl, rfl, rfl, rfl, rfl⟩

/-- R141: requests that waited through the responder's grant are then granted by rank. -/
theorem judgeReplay_byRank (s : State) (r : ResponderCtx) (waits : s.arb.localPort ≠ none ∨ s.arb.sweep ≠ none) :
    grantsByRank (s.judgeReplay r).settle := by
  have others : ∃ other q, other ≠ .writer ∧ other ≠ .responder ∧ s.arb.request other = some q := by
    rcases waits with h | h <;> obtain ⟨q, h⟩ := Option.ne_none_iff_exists'.1 h
    · exact ⟨.localPort, q, by decide, by decide, h⟩
    · exact ⟨.sweep, q, by decide, by decide, h⟩
  obtain ⟨other, q, writer, apart, request⟩ := others
  obtain ⟨g, c, x, judged⟩ := judgeReplay_eq s r
  have passed : (s.judgeReplay r).arb.request other = (s.arb.granting .responder).request other := by
    rw [judged]
    cases other <;> rfl
  rw [granting_request_other apart, request] at passed
  exact grantsByRank_settle writer passed rfl

/-- R136: the port is held for the read of a COMMITTED record. -/
theorem judgeReplay_reads (h : s.dir.lookup r.next = .committed i) : let t := (s.judgeReplay r).settle
    t.cat = s.cat ∧ t.portOp = some (.replayRead (.replay r.requester r.next i.origin i.tag
      (arrayReadBytes s.array (r.next % 4096 * 256) i.length)) true) := by
  dsimp only
  rw [settle_portOp, (Follows.settle _).same, judgeReplay_committed h]
  exact ⟨rfl, rfl⟩

/-- R136: the port is free while the context settles. -/
theorem judgeReplay_waits (free : s.arb.grant = none)
    (h : s.dir.lookup r.next = .filling ∨ ∃ i, s.dir.lookup r.next = .tentative i) : let t := (s.judgeReplay r).settle
    t.cat.responder = some { r with phase := .settling } ∧ t.arb.grant = none := by
  dsimp only
  rw [(Follows.settle _).grant, (Follows.settle _).same, judgeReplay_settles h]
  exact ⟨rfl, free⟩

/-- R135, R136: the port is free and a GONE offered. -/
theorem judgeReplay_offers (free : s.arb.grant = none) (h : (s.dir.lookup r.next).notHeld = true) :
    let t := (s.judgeReplay r).settle
    t.arb.grant = none ∧ ∃ n, (r.next ≤ r.last → longestGone s.dir r.next r.last n) ∧
      t.sel.responder = some (.gone r.requester r.next n) ∧
      t.cat.responder = some { r with phase := .offered (.gone r.requester r.next n) } := by
  obtain ⟨n, gone, longest⟩ := goneFrom_longest s.dir r.requester r.next r.last
  obtain ⟨context, offer⟩ := offerResponse_responder (s := s.giveUpGrant .responder) (r := r) (f := .gone r.requester r.next n)
  obtain ⟨context', offer', -⟩ := responderPart_iff.1 (responderPart_settle (s.judgeReplay r))
  have granted := (Follows.settle (s.judgeReplay r)).grant
  rw [judgeReplay_notHeld h, gone] at context' offer' granted ⊢
  rw [offerResponse_arb] at granted
  exact ⟨granted.trans free, n, longest, offer'.trans offer, context'.trans context⟩

/-! ## The completion (R136, R119) -/

theorem exec_replayReadComplete {wanted : Bool} (released : s.resetHeld = false)
    (reads : s.portOp = some (.replayRead f wanted)) :
    exec .replayReadComplete s = .next ((s.freePort).takeReplay f wanted).settle := by
  show execReplayReadComplete s = _
  rw [execReplayReadComplete, act_released released, reads]

/-- R136: in SYNCING and MEMBER the REPLAY is offered. -/
theorem takeReplay_offers (present : s.cat.responder = some r) (reading : r.phase = .reading none) (group : s.inGroup = true) :
    s.takeReplay f true = s.offerResponse r f := by
  rw [State.takeReplay, present]
  simp only [reading, group, and_self, if_true]

/-- R119: elsewhere it is kept. -/
theorem takeReplay_keeps (present : s.cat.responder = some r) (reading : r.phase = .reading none) (group : s.inGroup = false) :
    s.takeReplay f true = s.setResponder (some { r with phase := .reading (some f) }) := by
  rw [State.takeReplay, present]
  simp only [reading, group, and_self, if_true, Bool.false_eq_true, if_false]

/-- The result of a read goes to the responder alone. -/
theorem takeReplay_eq (s : State) (f : FrameBody) (wanted : Bool) : ∃ c x, s.takeReplay f wanted =
    { s with cat := { s.cat with responder := c }, sel := x } := by
  unfold State.takeReplay State.offerResponse State.reoffer
  repeat' split
  all_goals exact ⟨_, _, rfl⟩

/-- What the completion of the responder's read leaves alone. -/
theorem takeReplay_settle (s : State) (f : FrameBody) (wanted : Bool) : let t := (s.freePort.takeReplay f wanted).settle
    t.arb.grant = none ∧ t.now = s.now ∧ t.dir = s.dir ∧ t.bus = s.bus ∧ t.conf = s.conf ∧ t.mem = s.mem ∧
      t.port = s.port := by
  obtain ⟨c, x, taken⟩ := takeReplay_eq s.freePort f wanted
  have follows := Follows.settle (s.freePort.takeReplay f wanted)
  dsimp only
  rw [follows.grant, follows.same, taken]
  exact ⟨rfl, rfl, rfl, rfl, rfl, rfl, rfl⟩

/-! ## The statement -/

/-- Settles O46: the FETCH by `fetch_windowEnd`, the grant class by class of the lookup, the completion by the station state. -/
theorem replayReadIsJudgedAtItsGrant : Obligations.ReplayReadIsJudgedAtItsGrant := by
  refine ⟨fun s w k first count chk sc h group => fetch_windowEnd h group, fun s r released present =>
    ⟨fun reading grantable => ?_, fun f reading reads => ?_⟩⟩
  · have next := exec_replayReadGrant released present reading grantable
    have free := grant_of_grantable grantable
    obtain ⟨now, dir, bus, conf, mem, port⟩ := judgeReplay_settle s r
    refine ⟨_, next, keepsFixed_of_works replayReadGrant_works next, now, dir, bus, conf, mem, port, judgeReplay_byRank s r, ?_⟩
    cases lookup : s.dir.lookup r.next with
    | committed i => exact judgeReplay_reads lookup
    | filling => exact judgeReplay_waits free (.inl lookup)
    | tentative i => exact judgeReplay_waits free (.inr ⟨i, lookup⟩)
    | _ => exact judgeReplay_offers free (by rw [lookup]; rfl)
  · have next := exec_replayReadComplete released reads
    obtain ⟨grant, now, dir, bus, conf, mem, port⟩ := takeReplay_settle s f true
    obtain ⟨context, offer, -⟩ := responderPart_iff.1 (responderPart_settle (s.freePort.takeReplay f true))
    refine ⟨_, next, grant, keepsFixed_of_works replayReadComplete_works next, now, dir, bus, conf, mem, port,
      fun group => ?_, fun outside => ?_⟩
    · rw [context, offer, takeReplay_offers (s := s.freePort) present reading group]
      exact offerResponse_responder.symm
    · rw [context, takeReplay_keeps (s := s.freePort) present reading outside]
      rfl

end Sys2Proof.Proofs
end

section
/-! The temperature class (R155, R156) and what a change of class brings (R157). -/

namespace Sys2Proof.Proofs

open Sys2Proof Sys2Proof.Machine

variable {s : State}

/-- R156: a class rises by the ranges; it falls only below its boundary by 3 degrees. -/
theorem nextClass_eq (cls : TempClass) (celsius : Int) : nextClass cls celsius = match cls with
    | .cool => rangeClass celsius
    | .normal => if celsius < 37 then .cool else if 85 ≤ celsius then rangeClass celsius else .normal
    | .hot => if celsius < 37 then .cool else if celsius < 82 then .normal else if 100 ≤ celsius then .critical else .hot
    | .critical =>
      if celsius < 37 then .cool else if celsius < 82 then .normal else if celsius < 97 then .hot else .critical := by
  cases cls
  all_goals grind [nextClass, rangeClass, fallClass, TempClass.code]

/-- R157, R162: a change of class. -/
theorem changeClass_eq (s : State) (cls : TempClass) : s.changeClass cls = { s with
    temp := { s.temp with cls := cls }
    port := s.port.post (.temperature cls)
    swp := { s.swp with
      intervalEnd := s.swp.intervalEnd.map fun i => min i (s.now + intervalLength s.straps.slice cls)
      holdTimer := s.swp.holdTimer.map fun i => min i (s.now + intervalLength 0 cls)
      cool := if cls = .cool then .count else s.swp.cool } } := rfl

/-- R155, R156: an evaluation that judges the class to be `cls`. -/
theorem evaluate_eq {cls : TempClass} {due : Nat} {celsius : Int}
    (judged : (if s.temp.evaluated then nextClass s.temp.cls celsius else rangeClass celsius) = cls) :
    s.evaluate due celsius =
      if cls = s.temp.cls then s.setTemp { s.temp with evaluated := true, nextEval := some (due + ms 1) }
      else (s.setTemp { s.temp with evaluated := true, nextEval := some (due + ms 1) }).changeClass cls := by
  subst judged
  rfl

theorem exec_temperatureEvaluation {celsius : Int} {e : Nat} (released : s.resetHeld = false)
    (due : s.temp.nextEval = some e) : exec (.temperatureEvaluation celsius) s = .next ((s.at e).evaluate e celsius) := by
  show execTemperatureEvaluation celsius s = _
  rw [execTemperatureEvaluation, act_released released, due]

/-- Settles O50: the class of a later evaluation by `nextClass_eq`, what its change brings by `changeClass_eq`. -/
theorem temperatureSetsTheClass : Obligations.TemperatureSetsTheClass := by
  intro s celsius e released due byRange next n
  have judged : (if s.temp.evaluated then nextClass s.temp.cls celsius else rangeClass celsius) = next := by
    rw [nextClass_eq]
    cases first : s.temp.evaluated <;> simp only [next, first] <;> rfl
  rw [exec_temperatureEvaluation released due, evaluate_eq (s := s.at e) judged, changeClass_eq]
  rfl

end Sys2Proof.Proofs
end

section
/-! What follows by itself at the sweep engine: its one request at the array port (R146, R148, R149, R154) and its QUIET (R150). -/

namespace Sys2Proof.Proofs

open Sys2Proof Sys2Proof.Machine

variable {s t : State} {r : Nat}

/-! ## The array port and the engine before the request is judged -/

/-- The state of an event's end in which the sweep engine's request is judged. -/
def beforeRequest (s : State) : State := s.settlePresence.settleHead.settleWriter.settleQuiet

theorem settleChoice_arb (s : State) : s.settleChoice.arb = s.arb := rfl

theorem settle_arb (s : State) : s.settle.arb = (beforeRequest s).settleSweep.arb := settleChoice_arb _

theorem follows_beforeRequest (s : State) : Follows s (beforeRequest s) :=
  .trans .settlePresence (.trans .settleHead (.trans .settleWriter .settleQuiet))

/-- The array port and the sweep engine. -/
def portPart (s : State) : Arbiter × Sweep := (s.arb, s.swp)

theorem portPart_settleHead (s : State) : portPart s.settleHead = portPart s := by
  unfold State.settleHead
  repeat' split
  all_goals rfl

theorem portPart_settleQuiet (s : State) : portPart s.settleQuiet = portPart s := by
  unfold State.settleQuiet
  repeat' split
  all_goals rfl

/-- Before the request is judged the commit writer alone has placed or withdrawn a request. -/
theorem portPart_beforeRequest (s : State) : ∃ u, Follows s u ∧ portPart u = portPart s ∧
    portPart (beforeRequest s) = portPart u.settleWriter :=
  ⟨_, .trans .settlePresence .settleHead, (portPart_settleHead _).trans (by rw [settlePresence_eq]; rfl),
    portPart_settleQuiet _⟩

theorem settleWriter_sweep (s : State) : s.settleWriter.arb.sweep = s.arb.sweep := by
  unfold State.settleWriter State.withdraw
  repeat' split
  all_goals rfl

theorem beforeRequest_sweep (s : State) : (beforeRequest s).arb.sweep = s.arb.sweep := by
  obtain ⟨u, -, same, before⟩ := portPart_beforeRequest s
  have arb : (beforeRequest s).arb = u.settleWriter.arb := congrArg Prod.fst before
  have kept : u.arb = s.arb := congrArg Prod.fst same
  rw [arb, settleWriter_sweep, kept]

/-- R70: the commit writer has nothing to write and asks for nothing. -/
def WriterRests (s : State) : Prop := s.arb.writer = none ∧ (s.conf.write ≠ none ∨ s.conf.entries.any s.eligible = false)

theorem settleWriter_rests (h : WriterRests s) : s.settleWriter = s := by
  obtain ⟨absent, idle⟩ := h
  have unwanted : (s.conf.write.isNone && s.conf.entries.any s.eligible) = false := by
    rcases idle with busy | none
    · cases write : s.conf.write with
      | none => exact absurd write busy
      | some _ => rfl
    · rw [none, Bool.and_false]
  rw [State.settleWriter, unwanted, if_neg (by decide), State.withdraw, Arbiter.request, absent]

theorem writerRests_of_follows (h : Follows s t) (same : t.arb = s.arb) (rests : WriterRests s) : WriterRests t := by
  obtain ⟨absent, idle⟩ := rests
  have eligible : t.eligible = s.eligible := by rw [h.same]; rfl
  have conf : t.conf = s.conf := by rw [h.same]
  rw [WriterRests, same, conf, eligible]
  exact ⟨absent, idle⟩

/-- R154: the port quiet time runs on where the commit writer asks for nothing. -/
theorem beforeRequest_swp (rests : WriterRests s) : (beforeRequest s).swp = s.swp := by
  obtain ⟨u, follows, same, before⟩ := portPart_beforeRequest s
  rw [settleWriter_rests (writerRests_of_follows follows (congrArg Prod.fst same) rests), same] at before
  exact congrArg Prod.snd before

/-! ## The rank of the request (R146) -/

/-- The rank of the engine's request does not hang on a port quiet time that the commit writer's request could end. -/
def RankStands (s : State) : Prop := s.swp.licence = true ∨ 1 ≤ s.swp.balance ∨ s.inGroup = true ∨ WriterRests s

theorem inGroup_of_follows (h : Follows s t) : t.inGroup = s.inGroup := by rw [h.same]; rfl

theorem onHold_of_follows (h : Follows s t) : t.onHold = s.onHold := by rw [h.same]; rfl

theorem sliceGranted_of_follows (h : Follows s t) : t.sliceGranted = s.sliceGranted := by
  rw [State.sliceGranted, State.sliceGranted, State.portOp, State.portOp, h.grant]

/-- R148: at a balance of 1 or more a member asks while no pending entry is held and no frame is on the bus; any other station
asks. -/
theorem ordinaryDue_positive (pos : 1 ≤ s.swp.balance) : s.ordinaryDue = true ↔
    (s.mem.st ≠ .syncing ∧ s.mem.st ≠ .member) ∨ (s.conf.entries = [] ∧ s.bus.rx ≠ .frame) := by
  have above : ¬ s.swp.balance ≤ 0 := by omega
  have outside : s.inGroup = false ↔ s.mem.st ≠ .syncing ∧ s.mem.st ≠ .member := by simp [State.inGroup]
  rw [← outside, State.ordinaryDue]
  cases s.inGroup <;> simp [pos, above]

/-- R149: in the group the request of a pull-in falls due with the idle run. -/
theorem ordinaryDue_idle (group : s.inGroup = true) (low : -7 ≤ s.swp.balance) (high : s.swp.balance ≤ 0)
    (rx : s.bus.rx = .idle) (run : s.bt 200 ≤ s.idleRun) : s.ordinaryDue = true := by
  simp [State.ordinaryDue, group, low, high, rx, run]

/-- R154: outside it, with the port quiet time. -/
theorem ordinaryDue_quiet (outside : s.inGroup = false) (low : -7 ≤ s.swp.balance) (high : s.swp.balance ≤ 0)
    (time : us 200 ≤ s.portQuietTime) : s.ordinaryDue = true := by
  simp [State.ordinaryDue, outside, low, high, time]

theorem sweepRank_urgent (hold : s.onHold = false) (balance : 8 ≤ s.swp.balance) : s.sweepRank = some 1 := by
  simp [State.sweepRank, hold, balance]

theorem sweepRank_licence (hold : s.onHold = false) (licence : s.swp.licence = true) :
    ∃ r, s.sweepRank = some r ∧ r ≤ 6 := by
  by_cases balance : 8 ≤ s.swp.balance
  · exact ⟨1, sweepRank_urgent hold balance, by decide⟩
  · exact ⟨6, by simp [State.sweepRank, hold, balance, licence], le_rfl⟩

theorem sweepRank_ordinary (hold : s.onHold = false) (balance : s.swp.balance ≤ 7) (licence : s.swp.licence = false) :
    s.sweepRank = if s.ordinaryDue then some 7 else none := by
  have below : ¬ 8 ≤ s.swp.balance := by omega
  simp [State.sweepRank, hold, below, licence]

/-- What bears on the rank stands until the request is judged. -/
theorem sweepRank_beforeRequest (stands : RankStands s) : (beforeRequest s).sweepRank = s.sweepRank := by
  have follows := follows_beforeRequest s
  have hold := onHold_of_follows follows
  have group := inGroup_of_follows follows
  have same := follows.same
  have quiet := beforeRequest_swp (s := s)
  generalize beforeRequest s = u at *
  have balance : u.swp.balance = s.swp.balance := by rw [same]
  have licence : u.swp.licence = s.swp.licence := by rw [same]
  have conf : u.conf = s.conf := by rw [same]
  have bus : u.bus = s.bus := by rw [same]
  have bt : u.bt 200 = s.bt 200 := by rw [same]; rfl
  have run : u.idleRun = s.idleRun := by rw [same]; rfl
  have time : WriterRests s → u.portQuietTime = s.portQuietTime := fun rests => by
    have now : u.now = s.now := by rw [same]
    rw [State.portQuietTime, State.portQuietTime, now, quiet rests]
  have due : s.swp.licence = true ∨ u.ordinaryDue = s.ordinaryDue := by
    rcases stands with licensed | pos | within | rests
    · exact .inl licensed
    · have st : u.mem.st = s.mem.st := by rw [same]
      right
      rw [Bool.eq_iff_iff, ordinaryDue_positive (by rwa [balance]), ordinaryDue_positive pos, conf, bus, st]
    · right
      rw [State.ordinaryDue, State.ordinaryDue, group, within, balance, conf, bus, bt, run]
      rfl
    · right
      rw [State.ordinaryDue, State.ordinaryDue, group, balance, conf, bus, bt, run, time rests]
  rw [State.sweepRank, State.sweepRank, hold, balance, licence]
  rcases due with licensed | due
  · simp only [licensed, if_true]
  · rw [due]

/-! ## The request -/

/-- R146: a reason for a slice places the engine's request, or raises the one that waits. -/
theorem settle_request_of_rank (free : s.sliceGranted = false) (stands : RankStands s) (rank : s.sweepRank = some r) :
    ∃ q, s.settle.arb.sweep = some q ∧ q.rank ≤ r ∧
      (s.arb.sweep = none → q = { rank := r, since := s.now, atFree := s.arb.grant.isNone }) := by
  have follows := follows_beforeRequest s
  have judged := (sweepRank_beforeRequest stands).trans rank
  have waits := beforeRequest_sweep s
  have ungranted := (sliceGranted_of_follows follows).trans free
  have grant := follows.grant
  have now : (beforeRequest s).now = s.now := by rw [follows.same]
  rw [settle_arb, ← waits, ← now, ← grant]
  generalize beforeRequest s = u at *
  unfold State.settleSweep
  rw [if_neg (by simp [ungranted]), judged]
  cases request : u.arb.sweep with
  | none => exact ⟨_, rfl, le_rfl, fun _ => rfl⟩
  | some q =>
    dsimp only
    split
    · exact ⟨_, rfl, le_rfl, nofun⟩
    · next least => exact ⟨q, request, Nat.not_lt.1 least, nofun⟩

/-- R146: with no reason for a slice the request stays as it is. -/
theorem settle_request_of_none (stands : RankStands s) (rank : s.sweepRank = none) : s.settle.arb.sweep = s.arb.sweep := by
  have judged := (sweepRank_beforeRequest stands).trans rank
  rw [settle_arb, ← beforeRequest_sweep s]
  generalize beforeRequest s = u at *
  unfold State.settleSweep
  rw [judged]
  split <;> rfl

/-! ## The QUIET (R150) -/

/-- R150: a QUIET is offered where it is due, unless a licence stands or one is in flight. -/
theorem settle_quiet_absent (h : s.sel.sweep = none) : s.settle.sel.sweep =
    if s.quietDue && !s.swp.licence && !s.quietInFlight then some (.quiet (sliceMicros s.straps.slice + 20)) else none := by
  obtain ⟨u, follows, sweep, settled⟩ := settle_sweep s
  have licence : u.swp.licence = s.swp.licence := by rw [follows.same]
  have straps : u.straps = s.straps := by rw [follows.same]
  rw [settled, State.settleQuiet, sweep, h]
  dsimp only
  rw [quietDue_of_follows follows, quietInFlight_of_follows follows, licence, straps]
  split
  · rfl
  · exact sweep.trans h

theorem quietDue_iff : s.quietDue = true ↔ (s.mem.st = .syncing ∨ s.mem.st = .member) ∧ 6 ≤ s.swp.balance ∧
    s.swp.balance ≤ 7 := by
  simp [State.quietDue, inGroup_iff, and_assoc]

/-- R152: the duration that a QUIET carries, in microseconds. -/
theorem quietMicros (code : Fin 4) :
    sliceMicros code + 20 = if code = 1 then 190 else if code = 2 then 115 else 320 := by
  revert code
  decide

end Sys2Proof.Proofs
end

section
/-! The interval timer and the pull-ins (R145, R146, R148 to R150, R154). -/

namespace Sys2Proof.Proofs

open Sys2Proof Sys2Proof.Machine

variable {s : State} {e : Nat}

/-! ## The interval timer (R145) -/

theorem countExpiry_eq (cls : TempClass) (x : Sweep) : countExpiry cls x = { x with
    balance := if cls = .cool ∧ x.cool = .skip then x.balance else balanceUp x.balance
    cool := if cls = .cool then (if x.cool = .count then .skip else .count) else x.cool } := by
  obtain ⟨balance, position, intervalEnd, cool, _⟩ := x
  cases cls <;> cases cool <;> rfl

theorem balanceUp_eq {n : Int} (h : n ≤ 7) : balanceUp n = n + 1 := by
  unfold balanceUp
  omega

theorem intervalLength_eq (code : Fin 4) (cls : TempClass) : intervalLength code cls =
    (if code = 1 then 20000 else if code = 2 then 10000 else 40000) /
      (match cls with | .cool => 1 | .normal => 1 | .hot => 2 | .critical => 4) := by
  revert code
  cases cls <;> decide

/-- R145: an expiry that was due at `e` has been counted. -/
def counted (s : State) (e : Nat) : State := { s with
  now := max s.now e
  swp := { s.swp with
    balance := if s.temp.cls = .cool ∧ s.swp.cool = .skip then s.swp.balance else balanceUp s.swp.balance
    cool := if s.temp.cls = .cool then (if s.swp.cool = .count then .skip else .count) else s.swp.cool
    intervalEnd := some (e + intervalLength s.straps.slice s.temp.cls) } }

theorem exec_intervalTimerExpiry (released : s.resetHeld = false) (running : s.swp.intervalEnd = some e) :
    exec .intervalTimerExpiry s = .next (counted s e).settle := by
  show execIntervalTimerExpiry s = _
  rw [execIntervalTimerExpiry, act_released released]
  simp only [running, countExpiry_eq]
  rfl

/-- What the interval timer's expiry leaves alone. -/
theorem settle_counted (s : State) (e : Nat) : let t := (counted s e).settle
    t.now = max s.now e ∧ t.dir = s.dir ∧ t.bus = s.bus ∧ t.conf = s.conf ∧ t.mem = s.mem ∧ t.cat = s.cat ∧
    t.port = s.port ∧ t.arb.grant = s.arb.grant := by
  have follows := Follows.settle (counted s e)
  have grant := follows.grant
  dsimp only
  rw [grant, follows.same]
  exact ⟨rfl, rfl, rfl, rfl, rfl, rfl, rfl, rfl⟩

/-- R148: at a balance of 1 to 7 with no licence the request that follows is an ordinary one, where one may be made. -/
theorem settle_request_ordinary (hold : s.onHold = false) (free : s.sliceGranted = false) (licence : s.swp.licence = false)
    (absent : s.arb.sweep = none) (low : 1 ≤ s.swp.balance) (high : s.swp.balance ≤ 7) :
    let mayAsk := (s.mem.st ≠ .syncing ∧ s.mem.st ≠ .member) ∨ (s.conf.entries = [] ∧ s.bus.rx ≠ .frame)
    (mayAsk → ∃ q, s.settle.arb.sweep = some q ∧ q.rank = 7) ∧ (¬ mayAsk → s.settle.arb.sweep = none) := by
  have rank := sweepRank_ordinary hold high licence
  refine ⟨fun may => ?_, fun must => ?_⟩
  · rw [(ordinaryDue_positive low).2 may] at rank
    obtain ⟨q, request, -, placed⟩ := settle_request_of_rank free (.inr (.inl low)) rank
    exact ⟨q, request, by rw [placed absent]⟩
  · rw [Bool.eq_false_iff.2 (mt (ordinaryDue_positive low).1 must)] at rank
    exact (settle_request_of_none (.inr (.inl low)) rank).trans absent

/-- R146: at a balance of 8 the request that follows is an urgent one. -/
theorem settle_request_urgent (hold : s.onHold = false) (free : s.sliceGranted = false) (balance : s.swp.balance = 8) :
    ∃ q, s.settle.arb.sweep = some q ∧ q.rank ≤ 1 ∧ (s.arb.sweep = none → q.rank = 1) := by
  obtain ⟨q, request, rank, placed⟩ := settle_request_of_rank free (.inr (.inl (by omega)))
    (sweepRank_urgent hold (by omega))
  exact ⟨q, request, rank, fun absent => by rw [placed absent]⟩

theorem quietInFlight_eq_false (h : ∀ f, s.sel.inFlight = some f → f.sender ≠ .sweep) : s.quietInFlight = false := by
  unfold State.quietInFlight
  split
  · next f flying => simpa using h f flying
  · rfl

theorem quietInFlight_of_flying {f : InFlight} (flying : s.sel.inFlight = some f) (sender : f.sender = .sweep) :
    s.quietInFlight = true := by
  rw [State.quietInFlight, flying]
  simp [sender]

/-- R150: the QUIET that stands or is offered after an event. -/
theorem settle_quiet (s : State) :
    let due := (s.mem.st = .syncing ∨ s.mem.st = .member) ∧ 6 ≤ s.swp.balance ∧ s.swp.balance ≤ 7
    (due → s.swp.licence = false → s.sel.sweep = none → (∀ f, s.sel.inFlight = some f → f.sender ≠ .sweep) →
      s.settle.sel.sweep = some (.quiet (if s.straps.slice = 1 then 190 else if s.straps.slice = 2 then 115 else 320))) ∧
    (due → s.sel.sweep ≠ none → s.settle.sel.sweep = s.sel.sweep) ∧
    (due → s.sel.sweep = none → (s.swp.licence = true ∨ ∃ f, s.sel.inFlight = some f ∧ f.sender = .sweep) →
      s.settle.sel.sweep = none) ∧
    (¬ due → s.settle.sel.sweep = none) := by
  rw [← quietDue_iff]
  refine ⟨fun due licence absent flight => ?_, fun due offered => ?_, fun due absent stays => ?_, fun due => ?_⟩
  · rw [settle_quiet_absent absent, due, licence, quietInFlight_eq_false flight, quietMicros]
    rfl
  · obtain ⟨b, offer⟩ := Option.ne_none_iff_exists'.1 offered
    rw [settle_quiet_offered offer, due, if_pos rfl, offer]
  · rcases stays with licence | ⟨f, flying, sender⟩
    · rw [settle_quiet_absent absent, licence]
      simp
    · exact settle_quiet_inFlight absent (quietInFlight_of_flying flying sender)
  · rw [Bool.not_eq_true] at due
    cases offer : s.sel.sweep with
    | none =>
      rw [settle_quiet_absent offer, due]
      rfl
    | some b =>
      rw [settle_quiet_offered offer, due]
      rfl

/-! ## The pull-ins (R149, R154) -/

/-- A pull-in lets time pass until its request falls due. -/
theorem settle_request_pullIn (hold : s.onHold = false) (free : s.sliceGranted = false) (licence : s.swp.licence = false)
    (absent : s.arb.sweep = none) (balance : s.swp.balance ≤ 0) (stands : RankStands s) (due : s.ordinaryDue = true) :
    s.settle.arb.sweep = some { rank := 7, since := s.now, atFree := s.arb.grant.isNone } := by
  have rank := sweepRank_ordinary hold (by omega) licence
  rw [due, if_pos rfl] at rank
  obtain ⟨q, request, -, placed⟩ := settle_request_of_rank free stands rank
  rw [request, placed absent]

theorem exec_pullIn (released : s.resetHeld = false) (since : s.swp.idleSince = some e) (group : s.inGroup = true)
    (low : -7 ≤ s.swp.balance) (high : s.swp.balance ≤ 0) : exec .pullIn s = .next (s.at (e + s.bt 200)).settle := by
  show execPullIn s = _
  rw [execPullIn, act_released released, since]
  simp [group, State.pullInBalance, low, high]

theorem exec_portQuietPullIn (released : s.resetHeld = false) (since : s.swp.quietSince = some e)
    (outside : s.inGroup = false) (hold : s.onHold = false) (low : -7 ≤ s.swp.balance) (high : s.swp.balance ≤ 0) :
    exec .portQuietPullIn s = .next (s.at (e + us 200)).settle := by
  show execPortQuietPullIn s = _
  rw [execPortQuietPullIn, act_released released, since]
  simp [outside, hold, State.pullInBalance, low, high]

theorem onHold_of_inGroup (group : s.inGroup = true) : s.onHold = false := by
  rcases inGroup_iff.1 group with st | st <;> rw [State.onHold, st] <;> rfl

/-! ## The statement -/

/-- Settles O49: the interval timer's expiry by `exec_intervalTimerExpiry` and what follows it, the pull-ins by
`settle_request_pullIn`. -/
theorem intervalsAndPullInsRaiseSlices : Obligations.IntervalsAndPullInsRaiseSlices := by
  refine fun s e released => ⟨fun running below => ?_, fun since group rx low high licence free absent => ?_,
    fun since outside hold low high licence free absent writing writer => ?_⟩
  · have next := exec_intervalTimerExpiry released running
    have fixed := keepsFixed_of_works intervalTimerExpiry_works next
    obtain ⟨now, dir, bus, conf, mem, cat, port, grant⟩ := settle_counted s e
    have swp : (counted s e).settle.swp =
        { (counted s e).swp with quietSince := (counted s e).settle.swp.quietSince } := by rw [(Follows.settle _).same]
    have balance : (counted s e).settle.swp.balance = (counted s e).swp.balance := by rw [swp]
    refine ⟨_, next, now, swp.trans ?_, fixed, dir, bus, conf, mem, cat, port, grant, fun full hold free => ?_,
      fun low high hold free licence absent => ?_, ?_⟩
    · simp only [counted, intervalLength_eq, balanceUp_eq below] <;> rfl
    · exact settle_request_urgent (s := counted s e) hold free (balance ▸ full)
    · exact settle_request_ordinary (s := counted s e) hold free licence absent (balance ▸ low) (balance ▸ high)
    · rw [balance]
      exact settle_quiet (counted s e)
  · have within := inGroup_iff.2 group
    refine ⟨_, exec_pullIn released since within low high, ?_, .settle _⟩
    refine settle_request_pullIn (s := s.at (e + s.bt 200)) (onHold_of_inGroup within) free licence absent high
      (.inr (.inr (.inl within))) (ordinaryDue_idle within low high rx ?_)
    have run : (s.at (e + s.bt 200)).idleRun = max s.now (e + s.bt 200) - e := by
      simp only [State.idleRun, State.at, setNow_swp, since, setNow_now]
    show s.bt 200 ≤ _
    omega
  · refine ⟨_, exec_portQuietPullIn released since outside hold low high, ?_, .settle _⟩
    refine settle_request_pullIn (s := s.at (e + us 200)) hold free licence absent high
      (.inr (.inr (.inr ⟨writer, writing⟩))) (ordinaryDue_quiet outside low high ?_)
    have time : (s.at (e + us 200)).portQuietTime = max s.now (e + us 200) - e := by
      simp only [State.portQuietTime, State.at, setNow_swp, since, setNow_now]
    omega

end Sys2Proof.Proofs
end

section
/-! The slices (R143, R145, R147) and the QUIET that licenses them (R146, R150). -/

namespace Sys2Proof.Proofs

open Sys2Proof Sys2Proof.Machine

variable {s t : State} {b : Batch} {w : WindowRun} {rest : List WindowRun} {lowRun : Nat} {cls : Observed} {q : Request}
  {g : Grant} {e : Nat} {f : FrameBody}

/-! ## Grant and completion (R143, R145, R147) -/

theorem sliceMicros_eq (code : Fin 4) :
    us (sliceMicros code) = if code = 1 then 1700 else if code = 2 then 950 else 3000 := by
  revert code
  decide

theorem slicesPerPass_eq (code : Fin 4) : slicesPerPass code = if code = 1 then 2 else if code = 2 then 4 else 1 := by
  revert code
  decide

theorem balanceDown_eq {n : Int} (h : -7 ≤ n) : balanceDown n = n - 1 := by
  unfold balanceDown
  omega

/-- R147: a slice has been granted, its licence consumed. -/
def sliceStarted (s : State) : State :=
  let u := s.takeGrant .sweep .slice (some (s.now + us (sliceMicros s.straps.slice)))
  u.setSwp { u.swp with licence := false }

/-- R143: the slice holds the port for the slice duration. -/
theorem sliceStarted_grant (request : s.arb.sweep = some q) : (sliceStarted s).arb.grant =
    some { op := .slice, rank := q.rank, ends := some (s.now + us (sliceMicros s.straps.slice)) } := by
  unfold sliceStarted State.takeGrant
  rw [Arbiter.request, request]
  rfl

theorem exec_sweepSliceGrant (released : s.resetHeld = false) (waits : s.sliceWaits = true)
    (grantable : s.grantable .sweep = true) : exec .sweepSliceGrant s = .next (sliceStarted s).settle := by
  show execSweepSliceGrant s = _
  rw [execSweepSliceGrant, act_released released, waits, grantable]
  rfl

theorem sliceWaits_of_rank (request : s.arb.sweep = some q) (rank : q.rank = 1 ∨ q.rank = 6 ∨ q.rank = 7) :
    s.sliceWaits = true := by
  rw [State.sliceWaits, State.sweepWaits, request]
  rcases rank with rank | rank | rank <;> simp [rank]

/-- R146: while a slice is granted the engine places no request. -/
theorem settle_request_granted (granted : s.sliceGranted = true) : s.settle.arb.sweep = s.arb.sweep := by
  rw [settle_arb, ← beforeRequest_sweep s, State.settleSweep,
    if_pos ((sliceGranted_of_follows (follows_beforeRequest s)).trans granted)]

/-- R143, R145: a slice has been completed. -/
def sliceDone (s : State) (e : Nat) : State :=
  let u := (s.at e).freePort
  u.setSwp { u.swp with balance := balanceDown u.swp.balance, position := nextPosition u.straps.slice u.swp.position }

theorem exec_sweepSliceComplete (released : s.resetHeld = false) (grant : s.arb.grant = some g) (op : g.op = .slice)
    (ends : g.ends = some e) : exec .sweepSliceComplete s = .next (sliceDone s e).settle := by
  have granted : s.sliceGranted = true := by simp [State.sliceGranted, State.portOp, grant, op]
  have due : s.portEnds = e := by simp [State.portEnds, grant, ends]
  show execSweepSliceComplete s = _
  rw [execSweepSliceComplete, act_released released, granted, due]
  rfl

/-! ## What bears on the request and on the QUIET, through the end of a window -/

/-- The balance, the position, the licence, the QUIET offer and the operation that holds the port. -/
def sweepPart (s : State) : Int × Nat × Bool × Option FrameBody × Option Grant :=
  (s.swp.balance, s.swp.position, s.swp.licence, s.sel.sweep, s.arb.grant)

theorem sweepPart_iff : sweepPart t = sweepPart s ↔ t.swp.balance = s.swp.balance ∧ t.swp.position = s.swp.position ∧
    t.swp.licence = s.swp.licence ∧ t.sel.sweep = s.sel.sweep ∧ t.arb.grant = s.arb.grant := by simp [sweepPart]

theorem sweepPart_setRx (s : State) (rx : RxState) : sweepPart (s.setRx rx) = sweepPart s := by
  rw [setRx_eq]
  rfl

theorem sweepPart_afterClosing : sweepPart (afterClosing s w rest) = sweepPart s := by
  unfold afterClosing State.afterWindow
  dsimp only
  split
  · rfl
  · split <;> rw [setRx_eq] <;> rfl

theorem sweepPart_closing : sweepPart (closing s w rest lowRun) = sweepPart s := by
  rw [closing_eq]
  exact sweepPart_afterClosing

theorem sweepPart_respSettle : sweepPart s.respSettle = sweepPart s := by
  have decides : ∀ r, sweepPart (s.respDecide r) = sweepPart s := fun r => by
    unfold State.respDecide State.offerResponse State.reoffer
    repeat' split
    all_goals rfl
  unfold State.respSettle
  repeat' split
  all_goals first
    | rfl
    | exact decides _

theorem sweepPart_endStaleWait : sweepPart s.endStaleWait = sweepPart s := by
  unfold State.endStaleWait
  repeat' split
  all_goals rfl

theorem sweepPart_spendNumbers : sweepPart s.spendNumbers = sweepPart s := by
  unfold State.spendNumbers
  split
  · rfl
  · rw [dropAll_eq]
    rfl

theorem sweepPart_applyRetired {l : List Nat} : sweepPart (s.applyRetired l) = sweepPart s := by
  unfold State.applyRetired
  split <;> rfl

theorem applyRetired_beside {l : List Nat} : (s.applyRetired l).mem = s.mem ∧ (s.applyRetired l).sel = s.sel := by
  unfold State.applyRetired
  split <;> exact ⟨rfl, rfl⟩

/-- The requester's work leaves the sweep engine alone. -/
theorem sweepPart_pursued : Pursued fun s t => sweepPart t = sweepPart s where
  refl _ := rfl
  trans h k := k.trans h
  unoffer _ := rfl
  offer _ _ := rfl
  discardFlight s := by
    unfold State.discardFlight
    split
    · split <;> rfl
    · rfl
  setRequester _ _ := rfl
  markLost _ _ := rfl
  enter _ _ _ _ := rfl

theorem sweepPart_afterOutcome (n : Nat) : sweepPart (b.afterOutcome n).st = sweepPart b.st := by
  have rechecked : sweepPart b.recheck.st = sweepPart b.st := sweepPart_pursued.recheck rfl
  refine (sweepPart_pursued.followGaps rfl).trans ?_
  rw [on_st, sweepPart_spendNumbers, ← rechecked, ← sweepPart_respSettle (s := b.recheck.st)]
  split
  · exact sweepPart_endStaleWait
  · rfl

theorem sweepPart_retune (s : State) (target : RxState) : sweepPart (s.retune target) = sweepPart s := by
  unfold State.retune
  simp only [setRx_eq]
  rfl

theorem sweepPart_finishSwitch : sweepPart s.finishSwitch = sweepPart s := by
  unfold State.finishSwitch
  split
  · split
    · rfl
    · exact sweepPart_retune s _
  · rfl

theorem sweepPart_flush (b : Batch) : sweepPart b.flush = sweepPart b.st := by
  rw [Batch.flush, postAll_eq]
  rfl

theorem onHold_congr (h : t.mem.st = s.mem.st) : t.onHold = s.onHold := by
  unfold State.onHold
  rw [h]

/-- A station in the group stays in it and any other keeps its state, so that none comes on hold. -/
theorem onHold_of_abides (h : Abides s t) (hold : s.onHold = false) : t.onHold = false := by
  cases group : s.inGroup with
  | true => exact onHold_of_inGroup (h.group.trans group)
  | false => exact (onHold_congr (h.outside group)).trans hold

/-- What a window leaves to be done, with its notices and the switching that waited for it. -/
theorem afterOutcome_ends (b : Batch) (n : Nat) : let u := (b.afterOutcome n).flush.finishSwitch
    sweepPart u = sweepPart b.st ∧ (b.st.sel.inFlight = none → u.sel.inFlight = none) ∧ u.inGroup = b.st.inGroup ∧
    (b.st.onHold = false → u.onHold = false) := by
  have abides := afterOutcome_abides b n
  have part := sweepPart_afterOutcome (b := b) n
  generalize b.afterOutcome n = d at *
  have ends : Ends d.st d.flush.finishSwitch := .trans (.postAll d.st _) (.finishSwitch d.flush)
  have st : d.flush.finishSwitch.mem.st = d.st.mem.st := by rw [ends.mem]
  have line : d.st.sel.inFlight.isSome = b.st.sel.inFlight.isSome := congrArg (fun l => l.2.2) abides.line
  refine ⟨sweepPart_finishSwitch.trans ((sweepPart_flush d).trans part), fun grounded => ?_,
    (Abides.inGroup_congr st).trans abides.group, fun hold => (onHold_congr st).trans (onHold_of_abides abides hold)⟩
  rw [grounded] at line
  exact ends.inFlight.trans (Option.not_isSome_iff_eq_none.1 (by simp [line]))

/-! ## The result of the own QUIET (R98, R146) -/

/-- R146: the QUIET that stands gives the licence. -/
def licensed (s : State) (stands : Bool) : State := if stands then s.setSwp { s.swp with licence := true } else s

theorem deliver_quiet {x : Bool} (flying : b.st.sel.inFlight = some { sender := .sweep, body := f, discard := false }) :
    b.deliver cls x = b.on fun s => licensed (landed s cls) (decide (cls = .none) && !x) := by
  unfold Batch.deliver licensed
  rw [flying]
  dsimp only
  rw [landing_eq]
  cases decide (cls = .none) && !x <;> rfl

theorem licensed_landed (s : State) (cls : Observed) (stands : Bool) : let u := licensed (landed s cls) stands
    sweepPart u = (s.swp.balance, s.swp.position, s.swp.licence || stands, s.sel.sweep, s.arb.grant) ∧ u.mem.st = s.mem.st ∧
    u.sel.inFlight = none := by
  dsimp only
  rw [landed_eq]
  cases stands
  · rw [Bool.or_false]
    exact ⟨rfl, rfl, rfl⟩
  · rw [Bool.or_true]
    exact ⟨rfl, rfl, rfl⟩

/-- R146: the end of the own QUIET's window, but for what follows by itself. -/
theorem closed_quiet (judged : w.overlapping = false) (own : w.own = true) (budget : s.conf.budget ≤ 14)
    (flying : s.sel.inFlight = some { sender := .sweep, body := f, discard := false }) :
    let u := (closed s w (w.observed lowRun)).flush.finishSwitch
    sweepPart u = (s.swp.balance, s.swp.position, s.swp.licence || ownStands w lowRun, s.sel.sweep, s.arb.grant) ∧
    u.sel.inFlight = none ∧ u.inGroup = s.inGroup ∧ (s.onHold = false → u.onHold = false) := by
  have same := outcome_eq s (w.observed lowRun)
  have result := closed_own (cls := w.observed lowRun) judged own budget
  generalize State.applyOutcome _ _ = o at result
  generalize outcome s (w.observed lowRun) = v at *
  rw [deliver_quiet (by rw [same]; exact flying), stands_iff, on_on] at result
  obtain ⟨part, st, grounded⟩ := licensed_landed v (w.observed lowRun) (ownStands w lowRun)
  have v_part : sweepPart v = sweepPart s := by rw [same]; rfl
  obtain ⟨balance, position, licence, offer, grant⟩ := sweepPart_iff.1 v_part
  have v_st : v.mem.st = s.mem.st := by rw [same]
  obtain ⟨ended, grounds, group, hold⟩ := afterOutcome_ends
    (v.batch.on fun s => (licensed (landed s (w.observed lowRun)) (ownStands w lowRun)).applyRetired o.retired) s.dir.frontier
  rw [← result, on_st] at ended grounds group hold
  obtain ⟨mem, sel⟩ := applyRetired_beside (s := licensed (landed v (w.observed lowRun)) (ownStands w lowRun)) (l := o.retired)
  have kept := congrArg Membership.st mem
  refine ⟨ended.trans (sweepPart_applyRetired.trans (part.trans ?_)), grounds ?_,
    group.trans (Abides.inGroup_congr (kept.trans (st.trans v_st))),
    fun off => hold ((onHold_congr (kept.trans (st.trans v_st))).trans off)⟩
  · rw [balance, position, licence, offer, grant]
  · exact (congrArg Selector.inFlight sel).trans grounded

/-- R146, R150: what follows the end of the own QUIET's window: the request that the licence allows, or the QUIET anew. -/
theorem settle_licence {u : State} {stands : Bool} (part : sweepPart u = (s.swp.balance, s.swp.position, stands, none, s.arb.grant))
    (grounded : u.sel.inFlight = none) (group : u.inGroup = s.inGroup) (hold : s.onHold = false → u.onHold = false) :
    let t := u.settle
    t.sel.inFlight = none ∧ t.swp.licence = stands ∧ t.swp.balance = s.swp.balance ∧ t.swp.position = s.swp.position ∧
    (stands = true → s.sliceGranted = false → s.onHold = false → ∃ q, t.arb.sweep = some q ∧ q.rank ≤ 6) ∧
    t.sel.sweep = if stands = false ∧ s.inGroup = true ∧ 6 ≤ s.swp.balance ∧ s.swp.balance ≤ 7 then
      some (.quiet (if t.straps.slice = 1 then 190 else if t.straps.slice = 2 then 115 else 320)) else none := by
  have follows := Follows.settle u
  simp only [sweepPart, Prod.mk.injEq] at part
  obtain ⟨balance, position, licence, offer, grant⟩ := part
  refine ⟨follows.inFlight.trans grounded, ?_, ?_, ?_, fun holds free off => ?_, ?_⟩
  · rw [follows.same]
    exact licence
  · rw [follows.same]
    exact balance
  · rw [follows.same]
    exact position
  · have ungranted : u.sliceGranted = false := by rw [← free, State.sliceGranted, State.portOp, grant]; rfl
    obtain ⟨r, rank, least⟩ := sweepRank_licence (hold off) (licence.trans holds)
    obtain ⟨q, request, raised, -⟩ := settle_request_of_rank ungranted (.inl (licence.trans holds)) rank
    exact ⟨q, request, raised.trans least⟩
  · have straps : u.settle.straps = u.straps := by rw [follows.same]
    have flying : u.quietInFlight = false := by rw [State.quietInFlight, grounded]
    rw [settle_quiet_absent offer, flying, licence, straps, quietMicros, State.quietDue, group, balance]
    cases stands <;> simp [and_assoc]

/-! ## The statement -/

/-- Settles O48: grant and completion by `sliceStarted` and `sliceDone`, the end of the own QUIET's window by `closed_quiet` and
`settle_licence`. -/
theorem slicesLowerTheBalance : Obligations.SlicesLowerTheBalance := by
  refine ⟨fun s released => ⟨fun q request rank grantable => ?_, fun g e grant op ends low => ?_⟩,
    fun s w lowRun b ending own flying absent licence => ?_⟩
  · have next := exec_sweepSliceGrant released (sliceWaits_of_rank request rank) grantable
    have fixed := keepsFixed_of_works sweepSliceGrant_works next
    have follows := Follows.settle (sliceStarted s)
    refine ⟨_, next, follows.grant.trans ?_, settle_request_granted rfl, by rw [follows.same]; rfl, fixed, ?_⟩
    · rw [sliceStarted_grant request, sliceMicros_eq]
    · rw [follows.same]
      exact ⟨rfl, rfl, rfl, rfl, rfl, rfl, rfl⟩
  · have next := exec_sweepSliceComplete released grant op ends
    have fixed := keepsFixed_of_works sweepSliceComplete_works next
    have follows := Follows.settle (sliceDone s e)
    refine ⟨_, next, by rw [follows.same]; rfl, follows.grant, ?_, fixed, ?_⟩
    · rw [← balanceDown_eq low, ← slicesPerPass_eq, follows.same]
      rfl
    · rw [follows.same]
      exact ⟨rfl, rfl, rfl, rfl, rfl, rfl⟩
  · obtain ⟨rest, next⟩ := exec_windowEnds (lowRun := lowRun) ending
    obtain ⟨-, -, -, judged, budget⟩ := ending
    have fixed := keepsFixed_of_works (windowEnd_works lowRun) next
    have last := closed_now (closing s w rest lowRun) w (w.observed lowRun)
    obtain ⟨now, -, -, -, conf, -, st, sel⟩ := closing_spec s w rest lowRun
    obtain ⟨part, grounded, group, hold⟩ := closed_quiet (s := closing s w rest lowRun) (lowRun := lowRun) judged own
      (by rw [conf]; exact budget) (by rw [sel]; exact flying)
    obtain ⟨balance', position', licence', offer', grant'⟩ := sweepPart_iff.1
      (sweepPart_closing (s := s) (w := w) (rest := rest) (lowRun := lowRun))
    rw [balance', position', licence', offer', grant', licence, absent, Bool.false_or] at part
    obtain ⟨flight, licensed, balance, position, request, offer⟩ := settle_licence part grounded
      (group.trans (Abides.inGroup_congr st)) fun off => hold ((onHold_congr st).trans off)
    have straps := congrArg Fixed.straps fixed
    rw [show State.straps _ = s.straps from straps] at offer
    exact ⟨_, next, last.trans now, flight, licensed, balance, position, request, offer⟩

end Sys2Proof.Proofs
end

section
/-! The passes of hold (R162, R164) at the array port: grant, completion, and the spacing by the hold timer. -/

namespace Sys2Proof.Proofs

open Sys2Proof Sys2Proof.Machine

variable {s : State} {q : Request} {g : Grant} {e : Nat}

/-! ## The array port (R141, R154) -/

/-- R154: the port quiet time stands at 0 while the sweep engine's operation holds the port. -/
theorem takeGrant_sweep_eq (request : s.arb.sweep = some q) (op : PortOp) (ends : Option Nat) :
    s.takeGrant .sweep op ends = { s with
      arb := { s.arb.granting .sweep with grant := some { op := op, rank := q.rank, ends := ends } }
      swp := { s.swp with quietSince := none } } := by
  rw [State.takeGrant, Arbiter.request, request]
  rfl

theorem freePort_eq (s : State) : s.freePort = { s with
    arb := { s.arb with grant := none }
    swp := { s.swp with quietSince := s.freePort.swp.quietSince } } := rfl

theorem portOp_of_grant (grant : s.arb.grant = some g) : s.portOp = some g.op := by rw [State.portOp, grant]; rfl

theorem portEnds_of_grant (grant : s.arb.grant = some g) (ends : g.ends = some e) : s.portEnds = e := by
  rw [State.portEnds, grant]
  simp [ends]

theorem sweepWaits_of_request (request : s.arb.sweep = some q) : s.sweepWaits = some q.rank := by
  rw [State.sweepWaits, request]
  rfl

/-! ## The internal passes (R162) -/

theorem exec_holdTimerExpiry (released : s.resetHeld = false) (running : s.swp.holdTimer = some e) :
    let u := (s.at e).setSwp { s.swp with holdTimer := some (e + intervalLength 0 s.temp.cls) }
    exec .holdTimerExpiry s = .next (if s.swp.passState = some .none then
      (u.setSwp { u.swp with passState := some .waiting }).place .sweep 8 else u) := by
  show execHoldTimerExpiry s = _
  rw [execHoldTimerExpiry, act_released released, running]
  rfl

theorem exec_internalPassGrant (released : s.resetHeld = false) (waiting : s.swp.passState = some .waiting)
    (request : s.arb.sweep = some q) (rank : q.rank = 8) (grantable : s.grantable .sweep = true) :
    let u := s.takeGrant .sweep .internalPass (some (s.now + passTime))
    exec .internalPassGrant s = .next (u.setSwp { u.swp with passState := some .running }) := by
  refine (act_released released).trans ?_
  rw [if_pos ⟨waiting, (sweepWaits_of_request request).trans (congrArg some rank), grantable⟩]

theorem exec_internalPassComplete (released : s.resetHeld = false) (grant : s.arb.grant = some g)
    (op : g.op = .internalPass) (ends : g.ends = some e) : let u := (s.at e).freePort
    exec .internalPassComplete s = .next (u.setSwp { u.swp with passState := u.swp.passState.map fun _ => .none }) := by
  refine (act_released released).trans ?_
  rw [if_pos ((portOp_of_grant grant).trans (congrArg some op)), portEnds_of_grant grant ends]

/-- Settles O51: the expiry by `place_sweep_eq`, the grant by `takeGrant_sweep_eq`, the completion by `freePort_eq`. -/
theorem holdPassesAreSpaced : Obligations.HoldPassesAreSpaced := by
  refine fun s released => ⟨fun e running => ?_, fun q waiting request rank grantable => ?_, fun g e grant op ends => ?_⟩
  · rw [exec_holdTimerExpiry released running]
    split
    · rw [place_sweep_eq]
      rfl
    · rfl
  · refine ⟨_, exec_internalPassGrant released waiting request rank grantable, ?_⟩
    rw [takeGrant_sweep_eq request, rank]
    exact ⟨rfl, rfl, rfl⟩
  · refine ⟨_, exec_internalPassComplete released grant op ends, ?_⟩
    rw [freePort_eq]
    rfl

end Sys2Proof.Proofs
end

section
/-! The way out of hold (R163 to R165): RELEASE requests the exit pass, and the exit pass leads to LISTENING. -/

namespace Sys2Proof.Proofs

open Sys2Proof Sys2Proof.Machine

variable {s : State} {q : Request} {g : Grant} {e : Nat}

/-! ## RELEASE (R163, R171) -/

/-- R163: the grant once a running internal pass has been abandoned, where START turned hold-abort on. -/
def grantAfterRelease (s : State) : Option Grant :=
  if s.portOp = some .internalPass ∧ s.holdAbort = true then none else s.arb.grant

theorem grantAfterRelease_abandoned (pass : s.portOp = some .internalPass) (abort : s.holdAbort = true) :
    grantAfterRelease s = none := if_pos ⟨pass, abort⟩

theorem grantAfterRelease_kept (kept : s.portOp ≠ some .internalPass ∨ s.holdAbort = false) :
    grantAfterRelease s = s.arb.grant := by
  refine if_neg fun ⟨pass, abort⟩ => ?_
  rcases kept with other | off
  · exact other pass
  · exact Bool.false_ne_true (off.symm.trans abort)

theorem withdraw_sweep_portOp (s : State) : (s.withdraw .sweep).portOp = s.portOp := by
  rw [withdraw_sweep_eq]
  rfl

theorem withdraw_sweep_holdAbort (s : State) : (s.withdraw .sweep).holdAbort = s.holdAbort := by
  rw [withdraw_sweep_eq]
  rfl

/-- R163: the exit pass is requested at rank 2 in place of what the engine had asked for, and the hold timer stops. -/
theorem requestExitPass_eq (s : State) : s.requestExitPass = { s with
    arb := { s.arb with
      grant := grantAfterRelease s
      sweep := some { rank := 2, since := s.now, atFree := (grantAfterRelease s).isNone } }
    swp := { s.swp with quietSince := none, holdTimer := none, passState := none } } := by
  unfold State.requestExitPass grantAfterRelease
  dsimp only
  rw [withdraw_sweep_portOp, withdraw_sweep_holdAbort]
  split <;> rw [place_sweep_eq, withdraw_sweep_eq] <;> rfl

/-- R163, R171: RELEASE has been taken and answered. -/
def resumed (s : State) : State := (s.enter .resuming).requestExitPass.answer (.ok .release)

theorem resumed_eq (s : State) : resumed s = { s with
    mem := { s.mem with st := .resuming }
    arb := { s.arb with
      grant := grantAfterRelease s
      sweep := some { rank := 2, since := s.now, atFree := (grantAfterRelease s).isNone } }
    swp := { s.swp with quietSince := none, holdTimer := none, passState := none }
    port := { s.port.post (.state .resuming) with phase := .ready, slot := none, response := some (.ok .release) } } := by
  rw [resumed, requestExitPass_eq]
  rfl

theorem exec_release_held (released : s.resetHeld = false) (idle : s.port.phase = .idle) (held : s.mem.st = .held) :
    exec .release s = .next (resumed (s.shiftOut [] 0)).settle :=
  (act_transaction released idle).trans (by rw [shiftOut_mem, if_pos held, resumed])

theorem exec_release_elsewhere (released : s.resetHeld = false) (idle : s.port.phase = .idle) (outside : s.mem.st ≠ .held) :
    exec .release s = .next ((s.shiftOut [] 0).answer (.refusedState .release)) :=
  (act_transaction released idle).trans (by rw [shiftOut_mem, if_neg outside])

/-- Settles O18: in HELD by `resumed_eq`; what follows by itself leaves the request for the exit pass alone. -/
theorem releaseRequestsTheExitPass : Obligations.ReleaseRequestsTheExitPass := by
  refine fun s released idle => ⟨fun outside => ⟨_, exec_release_elsewhere released idle outside, answersOnly_answer⟩,
    fun held => ⟨_, exec_release_held released idle held, ?_⟩⟩
  have eq := resumed_eq (s.shiftOut [] 0)
  have follows := Follows.settle (resumed (s.shiftOut [] 0))
  have request := settle_sweep_onHold (s := resumed (s.shiftOut [] 0)) (by rw [eq]; rfl)
  generalize (resumed (s.shiftOut [] 0)).settle = t at *
  have grant : t.arb.grant = grantAfterRelease s := by rw [follows.grant, eq]; rfl
  have tag : t.out.tagCounter = s.out.tagCounter := by rw [follows.tagCounter, eq]; rfl
  have same := follows.same
  have port : t.port = { s.port.post (.state .resuming) with
      phase := .ready, slot := none, response := some (.ok .release), sdo := t.port.sdo } := by
    rw [same, eq, shiftOut_eq, post_sdo]
  rw [eq] at same
  have responder : t.arb.responder = s.arb.responder := by rw [follows.responder, eq]; rfl
  have localPort : t.arb.localPort = s.arb.localPort := by rw [follows.localPort, eq]; rfl
  have fixed : s.KeepsFixed t := by
    rw [State.KeepsFixed, State.fixed, tag, same]
    rfl
  refine ⟨?_, by rw [same], by rw [same], ?_, ?_, ⟨_, request.trans (by rw [eq]), rfl, rfl⟩,
    fun pass abort => grant.trans (grantAfterRelease_abandoned pass abort),
    fun kept => grant.trans (grantAfterRelease_kept kept), responder, localPort, port, fixed, ?_, ?_, ?_, ?_, ?_⟩
  all_goals rw [same]; rfl

/-! ## The exit pass (R164, R165) -/

theorem exec_exitPassGrant (released : s.resetHeld = false) (request : s.arb.sweep = some q) (rank : q.rank = 2)
    (grantable : s.grantable .sweep = true) :
    exec .exitPassGrant s = .next (s.takeGrant .sweep .exitPass (some (s.now + passTime))) := by
  refine (act_released released).trans ?_
  rw [if_pos ⟨(sweepWaits_of_request request).trans (congrArg some rank), grantable⟩]

theorem exec_exitPassComplete (released : s.resetHeld = false) (grant : s.arb.grant = some g) (op : g.op = .exitPass)
    (ends : g.ends = some e) : exec .exitPassComplete s = .next (s.at e).freePort.restartEngine.enterListening.settle := by
  refine (act_released released).trans ?_
  rw [if_pos ((portOp_of_grant grant).trans (congrArg some op)), portEnds_of_grant grant ends]

/-- R28: the interface that is switched on at once. -/
def switchedOn (s : State) : State := { s with
  bus := { s.bus with
    rx := .syncWait, windows := [], offTarget := none, dataFault := false, objFault := false, inhibit := false
    objWatch := false, recessiveSince := s.now }
  filter := { receive := none, window := none }
  conf := { s.conf with decision := none }
  mem := { s.mem with tick := none }
  swp := { s.swp with idleSince := none } }

theorem retune_syncWait (s : State) : s.retune .syncWait = switchedOn s := by
  rw [State.retune, setRx_eq]
  rfl

/-- R101: LISTENING entered with the interface off, so that its first IDLE is owed the listen timer. -/
def listensAnew (s : State) : State :=
  (switchedOn (s.setMem { s.mem with
    learned := none, highBefore := none, joinWait := none, listenOwed := true, listenTimer := none })).enter .listening

theorem enterListening_of_off (off : s.bus.rx = .off) (windows : s.bus.windows = []) (receive : s.filter.receive = none) :
    s.enterListening = listensAnew s := by
  have unsteady : s.bus.steady = false := by simp [Bus.steady, Bus.on, off]
  have switched : ∀ m, (s.setMem m).switchTo .syncWait = (s.setMem m).retune .syncWait :=
    fun m => switchTo_free (s := s.setMem m) receive (by simp [windows])
  unfold State.enterListening
  simp only [unsteady, Bool.false_eq_true, if_false]
  rw [switched, retune_syncWait]
  rfl

/-- Settles O52: the grant by `takeGrant_sweep_eq`, the completion by `enterListening_of_off`. -/
theorem exitPassLeadsToListening : Obligations.ExitPassLeadsToListening := by
  refine fun s released => ⟨fun q request rank grantable => ?_, fun g e grant op ends off windows receive => ?_⟩
  · refine ⟨_, exec_exitPassGrant released request rank grantable, ?_⟩
    rw [takeGrant_sweep_eq request, rank]
    exact ⟨rfl, rfl, rfl⟩
  · have next := exec_exitPassComplete released grant op ends
    have fixed := keepsFixed_of_works exitPassComplete_works next
    rw [enterListening_of_off (s := (s.at e).freePort.restartEngine) off windows receive] at next fixed
    have follows := Follows.settle (listensAnew (s.at e).freePort.restartEngine)
    have same := follows.same
    refine ⟨_, next, ?_, follows.grant, ?_, ?_, ?_, ?_, ?_, ?_, ?_, ?_, ?_, ?_, ?_, fixed, ?_, ?_, ?_⟩
    all_goals rw [same]; rfl

end Sys2Proof.Proofs
end

section
/-! Commands of the local port that are answered at once (R169, R176, R177, R180), collection (R170, R185), and the port status
that every command transaction shifts out first (R168). -/

namespace Sys2Proof.Proofs

open Sys2Proof Sys2Proof.Machine

variable {s : State} {a : Answer} {n : Nat} {l : List Byte}

/-! ## What a transaction shifts out (R168) -/

theorem portStatus_eq (s : State) : s.portStatus = statusByte s := by
  unfold State.portStatus statusByte State.attn
  cases s.port.phase <;> cases s.port.notices <;> rfl

theorem shiftOut_sdo (s : State) (l : List Byte) (n : Nat) :
    (s.shiftOut l n).port.sdo = statusByte s :: (l ++ s.meaningless n) := by
  rw [← portStatus_eq]
  rfl

@[simp] theorem meaningless_length (s : State) (n : Nat) : (s.meaningless n).length = n := by simp [State.meaningless]

/-! ## Answers at once (R169, R176, R177, R180) -/

/-- R22, R176: the bounds of the window in the status record. -/
theorem windowBounds_eq (s : State) : (∀ w, s.dir.window = some w → s.windowLow = w.low ∧ s.windowHigh = w.high) ∧
    (s.dir.window = none → s.windowLow = 0 ∧ s.windowHigh = 0) := by
  unfold State.windowLow State.windowHigh
  exact ⟨fun w window => by rw [window]; exact ⟨rfl, rfl⟩, fun empty => by rw [empty]; exact ⟨rfl, rfl⟩⟩

/-- Settles O12: the record is that of the station as the transaction finds it. -/
theorem statusReportsTheStation : Obligations.StatusReportsTheStation := by
  intro s released idle
  obtain ⟨bounds, empty⟩ := windowBounds_eq s
  exact ⟨_, s.statusRecord, act_transaction released idle, answersOnly_answer, rfl, rfl, bounds, empty, rfl, rfl, rfl, rfl, rfl,
    rfl, rfl, rfl, rfl⟩

/-- R177: the station numbers in order. -/
theorem getElem?_allStations (k : Station) : allStations[k.val]? = some k := by
  revert k
  decide

/-- R115, R177: the own entry as PEERS reports it. -/
theorem report_own (s : State) : (s.peerView s.straps.station).report s.now = {
    status := if s.mem.st = .syncing ∨ s.mem.st = .member then .active else .absent
    heardFrontier := if s.dir.frontier = 0 then none else some s.dir.frontier
    heardLow := s.dir.window.map Window.low
    heardMember := none, heardRetained := none, missed := 0, quietLeft := none, divergence := none } := by
  simp only [State.peerView, if_true, inGroup_iff]
  rfl

/-- R177: any other entry is the peer table's. -/
theorem peerView_other {k : Station} (other : k ≠ s.straps.station) : s.peerView k = s.mem.peer k := if_neg other

/-- Settles O13: the entry at a station's place is its own report. -/
theorem peersReportsAllEntries : Obligations.PeersReportsAllEntries := by
  intro s released idle
  refine ⟨_, allStations.map fun k => (s.peerView k).report s.now, act_transaction released idle, answersOnly_answer, rfl,
    fun k r entry => ?_⟩
  rw [List.getElem?_map, getElem?_allStations] at entry
  obtain rfl := Option.some.inj entry
  refine ⟨fun other => ?_, fun own => own ▸ report_own s⟩
  show (s.peerView k).report s.now = _
  rw [peerView_other other]
  rfl

theorem takeNotice_eq (s : State) : s.takeNotice = { s with port := { s.port with
    phase := .ready, slot := none, notices := s.port.notices.tail, lost := 0
    response := some (match s.port.notices with
      | [] => .empty s.port.lost
      | x :: _ => .notice s.port.lost x) } } := by
  unfold State.takeNotice
  cases notices : s.port.notices with
  | nil => simp [State.answer, State.setPort, notices]
  | cons x rest => rfl

/-- Settles O14, by `takeNotice_eq`. -/
theorem noticeTakesTheOldest : Obligations.NoticeTakesTheOldest := by
  refine fun s released idle => ⟨_, act_transaction released idle, ?_⟩
  rw [takeNotice_eq]
  rfl

/-- Settles O19. -/
theorem malformedCommandAnswersParam : Obligations.MalformedCommandAnswersParam := fun _ _ _ released idle =>
  ⟨_, act_transaction released idle, answersOnly_answer⟩

/-! ## READ is taken (R174) -/

theorem placeRead_eq (s : State) : s.placeRead = { s with
    arb := { s.arb with localPort := some {
      rank := 5, since := s.now, atFree := s.arb.grant.isNone && s.arb.waiting.isEmpty } }
    swp := { s.swp with quietSince := none } } := by
  have busy : (s.arb.setRequest .localPort (some {
      rank := 5, since := s.now, atFree := s.arb.grant.isNone && s.arb.waiting.isEmpty })).quiet = false := by
    simp [Arbiter.quiet, Arbiter.waiting, Arbiter.setRequest]
  rw [State.placeRead, State.withArb, busy]
  rfl

/-- Settles O11: the two tests, then `placeRead_eq`. -/
theorem readWaitsAtTheArrayPort : Obligations.ReadWaitsAtTheArrayPort := by
  refine fun g s released idle => ⟨_, act_transaction released idle, ?_⟩
  rw [shiftOut_mem]
  by_cases unset : s.mem.st = .unset
  · simp only [if_pos unset]
    exact answersOnly_answer
  by_cases zero : g = 0
  · simp only [if_neg unset, if_pos zero]
    exact answersOnly_answer
  simp only [if_neg unset, if_neg zero, placeRead_eq]
  rfl

/-! ## Collection (R170, R185) -/

/-- R170: a collection in READY. -/
theorem collect_ready (ready : s.port.phase = .ready) (response : s.port.response = some a) : s.collect n =
    { s with
      freeCount := s.freeCount + (n - a.bytes.length)
      port := if a.bytes.length ≤ n then { (s.shiftOut (a.bytes.take n) (n - a.bytes.length)).port with
          phase := .idle, response := none }
        else (s.shiftOut (a.bytes.take n) (n - a.bytes.length)).port } := by
  unfold State.collect
  rw [ready, response]
  dsimp only
  split <;> rfl

/-- R170: in IDLE and WORKING there is nothing to collect. -/
theorem collect_none (notReady : s.port.phase ≠ .ready) : s.collect n = s.shiftOut (noneResponse.take n) (n - 4) := by
  unfold State.collect
  split
  · next ready _ => exact absurd ready notReady
  · rfl

/-- R168, R170: the status, as much of a response as is clocked out, and bytes without meaning behind its end. -/
theorem collected_sdo (s : State) (response : List Byte) (n : Nat) :
    let sdo := (s.shiftOut (response.take n) (n - response.length)).port.sdo
    sdo.length = n + 1 ∧ sdo.head? = some (statusByte s) ∧ (sdo.drop 1).take response.length = response.take n := by
  dsimp only
  rw [shiftOut_sdo]
  refine ⟨by simp; omega, rfl, ?_⟩
  rw [List.drop_one, List.tail_cons]
  rcases Nat.lt_or_ge n response.length with short | whole
  · rw [Nat.sub_eq_zero_of_le short.le, show s.meaningless 0 = [] from rfl, List.append_nil, List.take_take,
      Nat.min_eq_right short.le]
  · rw [List.take_of_length_le whole, List.take_left]

theorem noneResponse_take (n : Nat) : noneResponse.take n = List.replicate (min n 4) 0 := by
  rw [show noneResponse = List.replicate 4 0 from rfl, List.take_replicate]

theorem exec_collect (released : s.resetHeld = false) : exec (.collect n) s = .next (s.collect n) :=
  act_released (f := fun s => s.collect n) released

/-- Settles O20: what is shifted out by `collected_sdo`, in READY of the answer and else of NONE. -/
theorem collectEmptiesTheResponse : Obligations.CollectEmptiesTheResponse := by
  refine fun n s released => ⟨fun a ready response => ⟨_, exec_collect released, ?_⟩,
    fun notReady => ⟨_, exec_collect released, ?_⟩⟩
  · have shifted := collected_sdo s a.bytes n
    rw [collect_ready ready response]
    by_cases whole : a.bytes.length ≤ n
    · simp only [if_pos whole]
      exact ⟨rfl, shifted⟩
    · simp only [if_neg whole]
      exact ⟨rfl, shifted⟩
  · rw [collect_none notReady]
    have shifted := collected_sdo s noneResponse n
    rw [noneResponse_take] at shifted ⊢
    exact ⟨rfl, shifted⟩

/-! ## Every command transaction (R168, R169) -/

/-- What a command does when it is taken keeps the bytes that its transaction shifted out. -/
def KeepsShifted (f : State → State) : Prop := ∀ s, (f s).port.sdo = s.port.sdo

theorem answer_shifted (a : State → Answer) : KeepsShifted fun s => s.answer (a s) := fun _ => rfl

theorem settle_sdo (s : State) : s.settle.port.sdo = s.port.sdo := by rw [settle_port]

theorem settleSend_sdo (s : State) : s.settleSend.port.sdo = s.port.sdo := by rw [(Follows.settleSend s).same]

theorem takeStart_shifted (p : Option StartParams) : KeepsShifted fun s => s.takeStart p := by
  intro s
  dsimp only [State.takeStart]
  repeat' split
  · rfl
  · rfl
  · rfl
  · next v _ => exact (settle_sdo _).trans (Internal.refl (s.setParams (some v))).enterListening.sdo

theorem join_shifted : KeepsShifted fun s =>
    if s.mem.st = .detached then (s.enterListening.answer (.ok .join)).settle else s.answer (.refusedState .join) := by
  intro s
  dsimp only
  split
  · exact (settle_sdo _).trans (Internal.refl s).enterListening.sdo
  · rfl

theorem takeSubmit_shifted (payload : List Byte) : KeepsShifted fun s => s.takeSubmit payload := by
  intro s
  dsimp only [State.takeSubmit]
  repeat' split
  · rfl
  · rfl
  · rfl
  · exact settleSend_sdo _

theorem read_shifted (g : BitVec 48) : KeepsShifted fun s =>
    if s.mem.st = .unset then s.answer (.refusedState .read)
    else if g = 0 then s.answer (.param 4)
    else (s.working (.read g.toNat)).placeRead := by
  intro s
  dsimp only
  repeat' split
  all_goals rfl

theorem takeNotice_shifted : KeepsShifted State.takeNotice := fun s => by rw [takeNotice_eq]

theorem takeLeave_shifted : KeepsShifted State.takeLeave := by
  intro s
  unfold State.takeLeave
  split
  · exact (Internal.refl s).enterLeaving.sdo
  · split
    · exact (Internal.refl s).detach.sdo
    · rfl

theorem takeHold_shifted : KeepsShifted State.takeHold := by
  intro s
  unfold State.takeHold
  split
  · exact (Internal.refl s).enterLeaving.sdo
  · rfl

theorem departure_shifted (c : SlotCommand) {take : State → State} (h : KeepsShifted take) :
    KeepsShifted fun s => s.departure c take := by
  intro s
  dsimp only [State.departure]
  split
  · rfl
  · exact (settle_sdo _).trans (h s)

theorem release_shifted : KeepsShifted fun s =>
    if s.mem.st = .held then ((s.enter .resuming).requestExitPass.answer (.ok .release)).settle
    else s.answer (.refusedState .release) := by
  intro s
  dsimp only
  split
  · exact (settle_sdo _).trans (requestExitPass_internal (Internal.refl s).enterState).sdo
  · rfl

/-- R169: each command that is sent in a command transaction starts as one. -/
theorem exec_commandTransaction {c : Instr} (sent : (encodeTransaction c).isSome) :
    ∃ n f, KeepsShifted f ∧ ∀ s, exec c s = s.act fun s => s.transaction n f := by
  cases c with
  | start g h r m d a => exact ⟨_, _, takeStart_shifted _, fun _ => rfl⟩
  | join => exact ⟨_, _, join_shifted, fun _ => rfl⟩
  | submit payload => exact ⟨_, _, takeSubmit_shifted payload, fun _ => rfl⟩
  | read g => exact ⟨_, _, read_shifted g, fun _ => rfl⟩
  | status => exact ⟨_, _, answer_shifted fun s => .status s.statusRecord, fun _ => rfl⟩
  | peers =>
    exact ⟨_, _, answer_shifted fun s => .peers (allStations.map fun k => (s.peerView k).report s.now), fun _ => rfl⟩
  | notice => exact ⟨_, _, takeNotice_shifted, fun _ => rfl⟩
  | leave => exact ⟨_, _, departure_shifted .leave takeLeave_shifted, fun _ => rfl⟩
  | hold => exact ⟨_, _, departure_shifted .hold takeHold_shifted, fun _ => rfl⟩
  | release => exact ⟨_, _, release_shifted, fun _ => rfl⟩
  | malformedCommand opening params =>
    exact ⟨_, _, answer_shifted fun s => if opening = 1 then .paramStart s.straps else .param opening, fun _ => rfl⟩
  | _ => cases sent

theorem transaction_shifted {f : State → State} (h : KeepsShifted f) (s : State) (n : Nat) :
    (s.transaction n f).port.sdo = (s.shiftOut [] n).port.sdo := by
  unfold State.transaction
  dsimp only
  split
  · exact h _
  · rfl

/-- Settles O7, by `exec_commandTransaction`. -/
theorem transactionsShiftStatusAndRefuseBusy : Obligations.TransactionsShiftStatusAndRefuseBusy := by
  intro c s sent released
  obtain ⟨n, f, shifted, starts⟩ := exec_commandTransaction sent
  refine ⟨s.transaction n f, (starts s).trans (act_released released), ?_, fun busy => ?_⟩
  · rw [transaction_shifted shifted, shiftOut_sdo]
    rfl
  · rw [transaction_busy busy]
    rfl

end Sys2Proof.Proofs
end

section
/-! START and JOIN (R172, R173, R101): the parameters of START, and the ways into LISTENING. -/

namespace Sys2Proof.Proofs

open Sys2Proof Sys2Proof.Machine

variable {s t : State} {g h r m a : Byte} {d : BitVec 16} {v : StartParams}

/-! ## The parameters of START (R172, R184) -/

/-- R172: the values of START's parameters are in their ranges. -/
def StartInRange (h r m : Byte) (d : BitVec 16) (a : Byte) : Prop :=
  h.toNat ≤ 3 ∧ 1 ≤ r.toNat ∧ r.toNat ≤ 15 ∧ m.toNat ≤ 1 ∧ d.toNat ≤ 4095 ∧ a.toNat ≤ 1

theorem startParams_inRange (range : StartInRange h r m d a) : ∃ p, startParams g h r m d a = some p ∧
    p.group = g ∧ p.heartbeat.val = h.toNat ∧ p.retryLimit = r.toNat ∧ (p.commitMode = .early ↔ m.toNat = 1) ∧
    p.historyDepth = d.toNat ∧ (p.holdAbort = true ↔ a.toNat = 1) := by
  obtain ⟨heartbeat, rest⟩ := range
  rw [startParams, dif_pos (Nat.lt_succ_of_le heartbeat), if_pos (by tauto)]
  exact ⟨_, rfl, rfl, rfl, rfl, by simp, rfl, by simp⟩

theorem startParams_outOfRange (range : ¬ StartInRange h r m d a) : startParams g h r m d a = none := by
  unfold startParams
  split
  · next heartbeat => exact if_neg fun rest => range ⟨Nat.le_of_lt_succ heartbeat, by tauto⟩
  · rfl

theorem illegal_iff (st : Straps) : st.illegal = true ↔ st.rate = 3 ∨ st.slice = 3 := by simp [Straps.illegal]

/-! ## START is taken (R172) -/

theorem exec_start (released : s.resetHeld = false) (idle : s.port.phase = .idle) :
    exec (.start g h r m d a) s = .next ((s.shiftOut [] 7).takeStart (startParams g h r m d a)) :=
  act_transaction (f := fun s => s.takeStart (startParams g h r m d a)) released idle

theorem takeStart_elsewhere (p : Option StartParams) (started : s.mem.st ≠ .unset) :
    s.takeStart p = s.answer (.refusedState .start) := if_pos started

theorem takeStart_refused (unset : s.mem.st = .unset) (bad : ¬ StartInRange h r m d a ∨ s.straps.illegal = true) :
    s.takeStart (startParams g h r m d a) = s.answer (.paramStart s.straps) := by
  unfold State.takeStart
  rw [if_neg (not_not.2 unset)]
  split
  · rfl
  · next v accepted =>
    refine if_pos (bad.resolve_left fun range => ?_)
    rw [startParams_outOfRange range] at accepted
    cases accepted

/-- R172: an accepted START, before what follows by itself. -/
def started (s : State) (v : StartParams) : State := (listensAnew (s.setParams (some v))).answer (.okStart s.straps)

theorem takeStart_listens (unset : s.mem.st = .unset) (legal : s.straps.illegal = false) (off : s.bus.rx = .off)
    (windows : s.bus.windows = []) (receive : s.filter.receive = none) : s.takeStart (some v) = (started s v).settle := by
  have listens := enterListening_of_off (s := s.setParams (some v)) off windows receive
  rw [State.takeStart, if_neg (not_not.2 unset), started, ← listens]
  exact if_neg (by simp [legal])

theorem started_eq (v : StartParams) (windows : s.bus.windows = []) : started s v = { s with
    params := some v
    mem := { s.mem with st := .listening, learned := none, highBefore := none, listenTimer := none, listenOwed := true
                        joinWait := none, tick := none }
    bus := { s.bus with rx := .syncWait, offTarget := none, dataFault := false, objFault := false, inhibit := false
                        objWatch := false, recessiveSince := s.now }
    filter := { receive := none, window := none }
    conf := { s.conf with decision := none }
    swp := { s.swp with idleSince := none }
    port := { s.port.post (.state .listening) with
      phase := .ready, slot := none, response := some (.okStart s.straps) } } := by
  dsimp only
  rw [windows]
  rfl

/-- Settles O8: the tests of START, then the entry to LISTENING by `enterListening_of_off`. -/
theorem startTestsParametersAndListens : Obligations.StartTestsParametersAndListens := by
  intro g h r m d a s released idle
  dsimp only
  have next := exec_start (g := g) (h := h) (r := r) (m := m) (d := d) (a := a) released idle
  refine ⟨fun started => ⟨_, next, ?_⟩, fun unset bad => ⟨_, next, ?_⟩, fun unset good off windows receive => ?_⟩
  · rw [takeStart_elsewhere _ (by exact started)]
    exact answersOnly_answer
  · have bad' : ¬ StartInRange h r m d a ∨ s.straps.illegal = true := by
      rw [illegal_iff, StartInRange]
      tauto
    rw [takeStart_refused (by exact unset) (by exact bad')]
    exact answersOnly_answer
  · obtain ⟨heartbeat, low, high, mode, depth, abort, rate, slice⟩ := good
    obtain ⟨p, accepted, values⟩ := startParams_inRange (g := g) ⟨heartbeat, low, high, mode, depth, abort⟩
    have legal : s.straps.illegal = false := by simp [Straps.illegal, rate, slice]
    have taken := takeStart_listens (s := s.shiftOut [] 7) (v := p) unset legal off windows receive
    rw [accepted, taken] at next
    have follows := Follows.settle (started (s.shiftOut [] 7) p)
    generalize (started (s.shiftOut [] 7) p).settle = t at next follows
    rw [started_eq (s := s.shiftOut [] 7) p windows, shiftOut_eq, post_sdo] at follows
    refine ⟨t, p, next, values, ?_⟩
    rw [congrArg State.freeCount follows.same, congrArg (fun t => t.port.sdo) follows.same]
    exact follows

/-! ## JOIN is taken (R173, R118, R101) -/

/-- R101: the membership unit at the entry to LISTENING with the interface not yet on. -/
def listeningMem (m : Membership) : Membership :=
  { m with learned := none, highBefore := none, joinWait := none, listenOwed := true, listenTimer := none }

theorem enterListening_unsteady (unsteady : s.bus.steady = false) :
    s.enterListening = ((s.setMem (listeningMem s.mem)).switchTo .syncWait).enter .listening := by
  unfold State.enterListening
  simp only [unsteady, Bool.false_eq_true, if_false, Bool.not_false]
  rfl

/-- From `s` to `t` the station has entered LISTENING, and the command that asked for it has been answered with `x`. -/
structure Listens (x : Answer) (s t : State) : Prop where
  same : t = { s with
    bus := t.bus, filter := t.filter, sel := t.sel, out := t.out, arb := t.arb, swp := t.swp
    conf := { s.conf with decision := t.conf.decision }
    mem := { listeningMem s.mem with st := .listening, tick := if s.ownUnderWay then s.mem.tick else none }
    port := { s.port.post (.state .listening) with phase := .ready, slot := none, response := some x } }
  queue : t.out.entries.map OutEntry.atRest = s.out.entries.map OutEntry.atRest
  tagCounter : t.out.tagCounter = s.out.tagCounter
  grant : t.arb.grant = s.arb.grant
  on : s.ownUnderWay = false → t.bus.rx = .syncWait ∧ t.bus.recessiveSince = s.now ∧ t.bus.offTarget = none
  waits : s.ownUnderWay = true → t.bus.offTarget = some .syncWait

/-- R42: the interface that JOIN switches on, at once or after the own frame's window. -/
theorem switchTo_syncWait (s : State) : (s.ownUnderWay = false → (s.switchTo .syncWait).bus.rx = .syncWait ∧
      (s.switchTo .syncWait).bus.recessiveSince = s.now ∧ (s.switchTo .syncWait).bus.offTarget = none) ∧
    (s.ownUnderWay = true → (s.switchTo .syncWait).bus.offTarget = some .syncWait) := by
  refine ⟨fun free => ?_, fun busy => ?_⟩
  · rw [State.switchTo, free, if_neg Bool.false_ne_true, retune_syncWait]
    exact ⟨rfl, rfl, rfl⟩
  · rw [State.switchTo, busy, if_pos rfl, State.finishOwn, setRx_eq]
    rfl

theorem listens_enterListening (x : Answer) (unsteady : s.bus.steady = false) :
    Listens x s (s.enterListening.answer x).settle := by
  have follows := Follows.settle (s.enterListening.answer x)
  rw [enterListening_unsteady unsteady] at follows ⊢
  have switched := switchTo_eq (s.setMem (listeningMem s.mem)) .syncWait
  have tick := switchTo_tick (s.setMem (listeningMem s.mem)) .syncWait
  obtain ⟨on, waits⟩ := switchTo_syncWait (s.setMem (listeningMem s.mem))
  generalize (s.setMem (listeningMem s.mem)).switchTo .syncWait = u at *
  rw [tick] at switched
  refine ⟨?_, follows.queue.trans (by rw [switched]; rfl), follows.tagCounter.trans (by rw [switched]; rfl),
    follows.grant.trans (by rw [switched]; rfl), ?_, ?_⟩
  · rw [follows.same, switched]
    rfl
  all_goals rw [follows.same]
  · exact on
  · exact waits

theorem Listens.keepsFixed {x : Answer} (h : Listens x s t) : s.KeepsFixed t := by
  have tag := h.tagCounter
  rw [State.KeepsFixed, h.same]
  simp [State.fixed, tag]

theorem exec_join_detached (released : s.resetHeld = false) (idle : s.port.phase = .idle) (detached : s.mem.st = .detached) :
    exec .join s = .next ((s.shiftOut [] 0).enterListening.answer (.ok .join)).settle :=
  (act_transaction released idle).trans (by rw [shiftOut_mem, if_pos detached])

theorem exec_join_elsewhere (released : s.resetHeld = false) (idle : s.port.phase = .idle) (elsewhere : s.mem.st ≠ .detached) :
    exec .join s = .next ((s.shiftOut [] 0).answer (.refusedState .join)) :=
  (act_transaction released idle).trans (by rw [shiftOut_mem, if_neg elsewhere])

/-- Settles O9, by `listens_enterListening`. -/
theorem joinListensFromDetached : Obligations.JoinListensFromDetached := by
  refine fun s released idle => ⟨fun elsewhere => ⟨_, exec_join_elsewhere released idle elsewhere, answersOnly_answer⟩,
    fun detached unsteady => ⟨_, exec_join_detached released idle detached, ?_⟩⟩
  have listens := listens_enterListening (s := s.shiftOut [] 0) (.ok .join) unsteady
  generalize State.settle _ = t at listens ⊢
  have length := congrArg List.length listens.queue
  rw [List.length_map, List.length_map] at length
  refine ⟨?_, listens.on, listens.waits, ?_, ?_, ?_, ?_, ?_, ?_, ?_, listens.grant, length⟩
  · rw [listens.same]
    rfl
  · rw [listens.same, shiftOut_eq, post_sdo]
  · have fixed := listens.keepsFixed
    rw [State.KeepsFixed] at fixed ⊢
    exact fixed
  all_goals rw [listens.same]; rfl

end Sys2Proof.Proofs
end

section
/-! The local READ at the array port (R174, R175, R22, R141, R142): its judgement at the grant and its completion. -/

namespace Sys2Proof.Proofs

open Sys2Proof Sys2Proof.Machine

variable {s t : State} {g : Nat} {a : Answer} {k : NoData} {i : RecordInfo} {m : Bool}

/-! ## The judgement (R22, R174) -/

/-- R22: the class of what a slot holds, for a GSN of the window. -/
def heldClass : Option Slot → LookupClass
  | some (.gap _) => .gap
  | some (.lost _) => .lost
  | some (.filling ..) => .filling
  | some (.tentative _ i) => .tentative i
  | some (.committed _ i) => .committed i
  | none => .below

theorem lookup_within {d : Directory} {w : Window} (window : d.window = some w) (above : ¬ w.high < g) (below : ¬ g < w.low) :
    d.lookup g = heldClass (d.held g) := by
  rw [Directory.lookup, window]
  simp only [if_neg above, if_neg below]
  rfl

/-- R174: what the grant of a READ does, before what follows by itself. -/
def readGranted (s : State) (g : Nat) : State :=
  if (s.readAnswer g).isData then s.takeGrant .localPort (.localRead (s.readAnswer g)) none
  else (s.giveUpGrant .localPort).answer (s.readAnswer g)

theorem exec_localReadGrant (released : s.resetHeld = false) (slot : s.port.slot = some (.read g))
    (grantable : s.grantable .localPort = true) : exec .localReadGrant s = .next (readGranted s g).settle := by
  show execLocalReadGrant s = _
  rw [execLocalReadGrant, act_released released, slot]
  simp only [grantable, if_true]
  rfl

theorem readGranted_noData (h : s.readAnswer g = .noData k g) :
    readGranted s g = (s.giveUpGrant .localPort).answer (.noData k g) := by
  rw [readGranted, h]
  rfl

theorem readGranted_data (h : s.readAnswer g = .data g i.origin i.tag m (s.readCell g i)) :
    readGranted s g = s.takeGrant .localPort (.localRead (.data g i.origin i.tag m (s.readCell g i))) none := by
  rw [readGranted, h]
  rfl

/-- The judgement takes the request of the READ away, and beside the array port it changes the local port alone. -/
theorem readGranted_eq (s : State) (g : Nat) : ∃ grant port, readGranted s g =
    { s.withArb { s.arb.granting .localPort with grant := grant } with port := port } := by
  unfold readGranted
  split
  · exact ⟨_, s.port, rfl⟩
  · exact ⟨s.arb.grant, _, rfl⟩

/-- What the grant of a READ leaves alone. -/
theorem readGranted_settle (s : State) (g : Nat) : let t := (readGranted s g).settle
    s.KeepsFixed t ∧ t.now = s.now ∧ t.dir = s.dir ∧ t.bus = s.bus ∧ t.conf = s.conf ∧ t.mem = s.mem ∧ t.cat = s.cat := by
  obtain ⟨grant, port, granted⟩ := readGranted_eq s g
  have follows := Follows.settle (readGranted s g)
  generalize (readGranted s g).settle = t at *
  have tag : t.out.tagCounter = s.out.tagCounter := follows.tagCounter.trans (by rw [granted]; rfl)
  dsimp only
  rw [State.KeepsFixed, follows.same, granted]
  exact ⟨by simp [State.fixed, State.withArb, tag], rfl, rfl, rfl, rfl, rfl, rfl⟩

/-- R141: after a grant, what waits for another block than the writer has waited through it, and all are granted by rank. -/
theorem grantsByRank_of_granting {grant : Option Grant} {who other : PortClient}
    (arb : t.arb = { s.arb.granting who with grant := grant }) (writer : other ≠ .writer) (apart : other ≠ who)
    (waits : s.arb.request other ≠ none) : grantsByRank t.settle := by
  obtain ⟨q, request⟩ := Option.ne_none_iff_exists'.1 waits
  have passed : t.arb.request other = (s.arb.granting who).request other := by
    rw [arb]
    cases other <;> rfl
  rw [granting_request_other apart, request] at passed
  exact grantsByRank_settle writer passed rfl

theorem readGranted_byRank (s : State) (g : Nat) (waits : s.arb.responder ≠ none ∨ s.arb.sweep ≠ none) :
    grantsByRank (readGranted s g).settle := by
  obtain ⟨grant, port, granted⟩ := readGranted_eq s g
  have arb := congrArg State.arb granted
  rcases waits with responder | sweep
  · exact grantsByRank_of_granting (other := .responder) arb (by decide) (by decide) responder
  · exact grantsByRank_of_granting (other := .sweep) arb (by decide) (by decide) sweep

/-- From `s` to `t` a READ of `g` has been answered without data, and its grant given up (R142, R174). -/
def AnsweredNoData (s t : State) (g : Nat) (k : NoData) : Prop :=
  t.arb.grant = none ∧ t.port = { s.port with phase := .ready, slot := none, response := some (.noData k g) }

/-- From `s` to `t` a READ of `g` has been granted the port for the data of its cell (R174). -/
def ReadsData (s t : State) (g : Nat) (i : RecordInfo) (m : Bool) : Prop :=
  t.port = s.port ∧ t.portOp = some (.localRead (.data g i.origin i.tag m (arrayReadBytes s.array (g % 4096 * 256) i.length)))

theorem readGranted_answers (free : s.arb.grant = none) (h : s.readAnswer g = .noData k g) :
    AnsweredNoData s (readGranted s g).settle g k := by
  rw [AnsweredNoData, settle_port, (Follows.settle _).grant, readGranted_noData h]
  exact ⟨free, rfl⟩

theorem readGranted_reads (h : s.readAnswer g = .data g i.origin i.tag m (s.readCell g i)) :
    ReadsData s (readGranted s g).settle g i m := by
  rw [ReadsData, settle_port, settle_portOp, readGranted_data h]
  exact ⟨rfl, rfl⟩

/-! ## The completion (R174, R175) -/

theorem exec_localReadComplete (released : s.resetHeld = false) (reads : s.portOp = some (.localRead a)) :
    exec .localReadComplete s = .next (s.freePort.answer a).settle := by
  show execLocalReadComplete s = _
  rw [execLocalReadComplete, act_released released, reads]

/-- What the completion of a READ leaves alone. -/
theorem readCompleted_settle (s : State) (a : Answer) : let t := (s.freePort.answer a).settle
    t.arb.grant = none ∧ t.port = { s.port with phase := .ready, slot := none, response := some a } ∧
    s.KeepsFixed t ∧ t.now = s.now ∧ t.dir = s.dir ∧ t.bus = s.bus ∧ t.conf = s.conf ∧ t.mem = s.mem ∧ t.cat = s.cat := by
  have follows := Follows.settle (s.freePort.answer a)
  have tag : (s.freePort.answer a).settle.out.tagCounter = s.out.tagCounter := follows.tagCounter
  dsimp only
  rw [follows.grant, State.KeepsFixed, State.fixed, tag, follows.same]
  exact ⟨rfl, rfl, rfl, rfl, rfl, rfl, rfl, rfl, rfl⟩

/-! ## The statement -/

/-- Settles O47: the class is that of the lookup, place by place; then `readGranted_answers` or `readGranted_reads`. -/
theorem localReadIsAnsweredByItsClass : Obligations.LocalReadIsAnsweredByItsClass := by
  refine fun s released => ⟨fun g slot grantable => ⟨_, exec_localReadGrant released slot grantable, ?_⟩,
    fun a reads => ⟨_, exec_localReadComplete released reads, readCompleted_settle s a⟩⟩
  have free := grant_of_grantable grantable
  refine ⟨?_, readGranted_byRank s g, readGranted_settle s g⟩
  cases window : s.dir.window with
  | none => exact readGranted_answers free (by simp [State.readAnswer, Directory.lookup, window])
  | some w =>
    dsimp only
    by_cases above : w.high < g
    · rw [if_pos above]
      exact readGranted_answers free (by simp [State.readAnswer, Directory.lookup, window, above])
    by_cases below : g < w.low
    · rw [if_neg above, if_pos below]
      exact readGranted_answers free (by simp [State.readAnswer, Directory.lookup, window, above, below])
    rw [if_neg above, if_neg below]
    have within := lookup_within window above below
    cases held : s.dir.held g with
    | none => exact readGranted_answers free (by simp [State.readAnswer, within, held, heldClass])
    | some x =>
      cases x with
      | gap _ => exact readGranted_answers free (by simp [State.readAnswer, within, held, heldClass])
      | lost _ => exact readGranted_answers free (by simp [State.readAnswer, within, held, heldClass])
      | filling _ _ => exact readGranted_answers free (by simp [State.readAnswer, within, held, heldClass])
      | tentative _ i => exact readGranted_reads (by simp [State.readAnswer, within, held, heldClass])
      | committed _ i => exact readGranted_reads (by simp [State.readAnswer, within, held, heldClass])

end Sys2Proof.Proofs
end

section
/-! Transactions of the local port as they are sent (R168 to R170, R184): as bytes, and as bits on SDI. -/

namespace Sys2Proof.Proofs

open Sys2Proof Sys2Proof.Machine Sys2Proof.Laws

variable {i : Instr} {opening : Byte} {params : List Byte} {trailing : List Bool}

/-! ## Bytes (R169, R184) -/

theorem transaction_statement (i : Instr) : Transaction.Statement i := by
  cases i with
  | start g h r m d a => exact Transaction.start g h r m d a
  | join => exact Transaction.join
  | submit payload => exact Transaction.submit payload
  | read g => exact Transaction.read g
  | status => exact Transaction.status
  | peers => exact Transaction.peers
  | notice => exact Transaction.notice
  | leave => exact Transaction.leave
  | hold => exact Transaction.hold
  | release => exact Transaction.release
  | malformedCommand opening params => exact Transaction.malformedCommand opening params
  | _ => exact fun _ _ _ sent => nomatch sent

/-- R169: what a transaction decodes to, or else the malformed command, is the command that was sent. -/
theorem decode_getD (wf : i.WellFormed) (sent : encodeTransaction i = some (opening, params)) :
    (decodeTransaction opening params).getD (.malformedCommand opening params) = i := by
  rw [transaction_statement i wf opening params sent]
  cases i with
  | malformedCommand o ps =>
    cases sent
    rfl
  | _ => rfl

/-- R170: no command transaction opens with the code of a collect transaction. -/
theorem opening_ne_collectCode (wf : i.WellFormed) (sent : encodeTransaction i = some (opening, params)) :
    opening ≠ collectCode := by
  cases i with
  | malformedCommand o ps =>
    obtain ⟨other, -⟩ := Bool.and_eq_true_iff.1 wf
    cases sent
    exact bne_iff_ne.1 other
  | _ =>
    cases sent <;> decide

/-! ## Bits (R168, R169) -/

theorem wholeBytes_short (short : trailing.length < 8) : wholeBytes trailing = [] := by
  unfold wholeBytes
  split
  · simp only [List.length_cons] at short
    omega
  · rfl

/-- R168, R169: the bytes that are sent are received; what is left of a byte at the end is discarded. -/
theorem wholeBytes_bitsOf (bytes : List Byte) (short : trailing.length < 8) :
    wholeBytes (bitsOf bytes ++ trailing) = bytes := by
  induction bytes with
  | nil => exact wholeBytes_short short
  | cons b rest ih =>
    have first : bitsOf (b :: rest) ++ trailing = bitsOf [b] ++ (bitsOf rest ++ trailing) := by
      simp only [bitsOf, List.flatMap_cons, List.flatMap_nil, List.append_nil, List.append_assoc]
    rw [first, bitsOf_singleton]
    exact congrArg₂ List.cons (ofBoolListBE_getMsbD b) ih

theorem portTransaction_bitsOf (opening : Byte) (params : List Byte) (short : trailing.length < 8) :
    portTransaction false (bitsOf (opening :: params) ++ trailing) =
      if opening = collectCode then some (.collect params.length)
      else some ((decodeTransaction opening params).getD (.malformedCommand opening params)) := by
  rw [portTransaction, wholeBytes_bitsOf _ short]
  rfl

theorem portTransaction_short (short : trailing.length < 8) : portTransaction false trailing = none := by
  rw [portTransaction, wholeBytes_short short]
  rfl

/-- Settles O60: the bytes by `transaction_statement`, the bits by `portTransaction_bitsOf`. -/
theorem transactionsDecodeAsSent : Obligations.TransactionsDecodeAsSent := by
  refine ⟨transaction_statement, fun i opening params trailing wf sent short => ?_, fun params trailing short => ?_,
    fun bits short => portTransaction_short short, fun bits => rfl⟩
  · rw [portTransaction_bitsOf _ _ short, if_neg (opening_ne_collectCode wf sent), decode_getD wf sent]
  · exact (portTransaction_bitsOf _ _ short).trans (if_pos rfl)

end Sys2Proof.Proofs
end

section
/-! The release of hardware reset (R181, R143 to R145, R155), and commands while RESET_N is low. -/

namespace Sys2Proof.Proofs

open Sys2Proof Sys2Proof.Machine

variable {s : State}

/-- R181: the straps as their pins give them, the most significant first. -/
theorem strapsOf_eq (a : StationPins) (b : RatePins) (c : SlicePins) :
    (strapsOf a b c).station.val = 8 * a.sid3.toNat + 4 * a.sid2.toNat + 2 * a.sid1.toNat + a.sid0.toNat ∧
    (strapsOf a b c).rate.val = 2 * b.rate1.toNat + b.rate0.toNat ∧
    (strapsOf a b c).slice.val = 2 * c.slice1.toNat + c.slice0.toNat := by
  simp only [strapsOf, pinsNat, List.foldl_cons, List.foldl_nil, Fin.val_ofNat]
  have := a.sid3.toNat_le
  have := a.sid2.toNat_le
  have := a.sid1.toNat_le
  have := a.sid0.toNat_le
  have := b.rate1.toNat_le
  have := b.rate0.toNat_le
  have := c.slice1.toNat_le
  have := c.slice0.toNat_le
  omega

/-- R143 to R145: the NORMAL interval of a slice code. -/
theorem intervalLength_normal (code : Fin 4) :
    intervalLength code .normal = if code = 1 then 20000 else if code = 2 then 10000 else 40000 := by
  revert code
  decide

/-- R154: the quiet time of a port that is free with no request waiting starts. -/
theorem withArb_quiet {a : Arbiter} (idle : a.quiet = true) (quiet : s.swp.quietSince = none) :
    s.withArb a = { s with arb := a, swp := { s.swp with quietSince := some s.now } } := by
  rw [State.withArb, idle, quiet]
  rfl

theorem release_eq (straps : Straps) (free : s.arb.grant = none) (waiting : s.arb.waiting = [])
    (quiet : s.swp.quietSince = none) : s.release straps = { s with
      resetHeld := false
      straps := straps
      swp := { s.swp with
        intervalEnd := some (s.now + (if straps.slice = 1 then 20000 else if straps.slice = 2 then 10000 else 40000))
        quietSince := some s.now }
      temp := { s.temp with nextEval := some (s.now + 10000) } } := by
  have idle : s.arb.quiet = true := by simp [Arbiter.quiet, free, waiting]
  rw [← intervalLength_normal]
  exact withArb_quiet (a := s.arb) idle quiet

theorem exec_resetRelease (a : StationPins) (b : RatePins) (c : SlicePins) (s : State) : exec (.resetRelease a b c) s =
    .next (if s.resetHeld then s.release (strapsOf a b c) else s) := rfl

/-- The model's choice, notes/assumptions/7.md: while RESET_N is low only the reset and its release act. -/
theorem exec_held (c : Instr) (held : s.resetHeld = true) (notReset : c ≠ .hardwareReset)
    (notRelease : ∀ a b d, c ≠ .resetRelease a b d) : exec c s = .next s := by
  cases c with
  | hardwareReset => exact absurd rfl notReset
  | resetRelease a b d => exact absurd rfl (notRelease a b d)
  | _ => apply act_held held

/-- Settles O6, by `release_eq` and `exec_held`. -/
theorem resetReleaseSamplesStraps : Obligations.ResetReleaseSamplesStraps := by
  refine ⟨fun a b c s held free waiting quiet => ?_, fun a b c s released => ?_,
    fun c s held notReset notRelease => exec_held c held notReset notRelease⟩
  · obtain ⟨station, rate, slice⟩ := strapsOf_eq a b c
    refine ⟨_, _, _, station, rate, slice, ?_⟩
    rw [exec_resetRelease, if_pos held, release_eq _ free waiting quiet]
  · rw [exec_resetRelease, if_neg (by simp [released])]

end Sys2Proof.Proofs
end

section
/-! The completions of a write at the record array (R72, R73): beside the payload in its cell, only the blocks work on. -/

namespace Sys2Proof.Proofs

open Sys2Proof Sys2Proof.Machine

/-- Nothing happens, or a payload reaches a cell and from there the blocks work on. -/
def WritesCell (s t : State) : Prop := t = s ∨ ∃ g payload, Internal (s.writeCell g payload) t

section
variable (s : State)

theorem completeLate_writesCell (w : CurrentWrite) : WritesCell s (s.completeLate w) :=
  .inr ⟨_, _, completeLate_internal w⟩

theorem finishEarly_writesCell (w : CurrentWrite) : WritesCell s ((s.endWrite w).finishEarly w) :=
  .inr ⟨_, _, finishEarly_internal w⟩

theorem commitWriteComplete_writesCell : Reaches WritesCell (execCommitWriteComplete s) s := by
  refine .act (.inl rfl) ?_
  split
  · next w _ =>
    split
    · exact .inl rfl
    · exact completeLate_writesCell s w
  · exact .inl rfl

theorem earlyWriteComplete_writesCell : Reaches WritesCell (execEarlyWriteComplete s) s := by
  refine .act (.inl rfl) ?_
  split
  · next w _ =>
    split
    · exact .inl rfl
    · split
      · exact finishEarly_writesCell s w
      · exact completeLate_writesCell s w
  · exact .inl rfl

end

/-- A command that reaches a state in one relation reaches it in every weaker one. -/
theorem Reaches.imp {r q : State → State → Prop} {o : Host.Outcome State Fault Refusal} {s : State} (h : Reaches r o s)
    (weaker : ∀ t, r s t → q s t) : Reaches q o s := by
  obtain ⟨t, next, related⟩ := h
  exact ⟨t, next, weaker t related⟩

end Sys2Proof.Proofs
end

section
/-! The canonical form of the record array along every step (R1, R139, notes/assumptions/9.md, 31.md). -/

namespace Sys2Proof.Proofs

open Sys2Proof Sys2Proof.Machine

/-- From `s` to `t` the array stays in canonical form. -/
def KeepsCanonical (s t : State) : Prop := s.ArrayCanonical → t.ArrayCanonical

theorem keepsCanonical_of_array {s t : State} (h : t.array = s.array) : KeepsCanonical s t := fun k => by
  rw [State.ArrayCanonical, h]
  exact k

theorem writeCell_keepsCanonical (s : State) (g : Nat) (payload : List Byte) : KeepsCanonical s (s.writeCell g payload) :=
  arrayWriteBytes_wf payload s.array (cellAddress g)

theorem WritesCell.keepsCanonical {s t : State} (h : WritesCell s t) : KeepsCanonical s t := by
  obtain rfl | ⟨g, payload, internal⟩ := h
  · exact id
  · have same : KeepsCanonical (s.writeCell g payload) t := keepsCanonical_of_array (congrArg Fixed.array internal.fixed)
    exact fun k => same (writeCell_keepsCanonical s g payload k)

/-- R139: a write that a reset abandons has reached some bytes of its cell, each by a write of its own. -/
theorem hardwareReset_keepsCanonical (s : State) : KeepsCanonical s s.hardwareReset := by
  intro k
  show Memory.wf s.abandonedArray = true
  unfold State.abandonedArray
  split
  · split
    · next w _ => exact arrayAbandon_wf w.payload _ _ _ _ k
    · exact k
  · exact k

theorem exec_keepsCanonical (c : Instr) (s : State) : Reaches KeepsCanonical (exec c s) s := by
  by_cases reset : c = .hardwareReset
  · subst reset
    exact ⟨_, rfl, hardwareReset_keepsCanonical s⟩
  by_cases late : c = .commitWriteComplete
  · subst late
    exact (commitWriteComplete_writesCell s).imp fun _ => WritesCell.keepsCanonical
  by_cases early : c = .earlyWriteComplete
  · subst early
    exact (earlyWriteComplete_writesCell s).imp fun _ => WritesCell.keepsCanonical
  exact (exec_upholds c s reset late early).imp fun _ upheld => keepsCanonical_of_array upheld.array

theorem tick_array (s : State) : s.tick.array = s.array := by
  unfold State.tick
  split
  · rfl
  · rfl

/-- Settles O53, by `exec_keepsCanonical`: the array is left alone, or it is written byte by byte, each byte in canonical form. -/
theorem stepsKeepTheArrayCanonical : Obligations.StepsKeepTheArrayCanonical := by
  intro s t canonical h
  unfold step at h
  split at h
  · cases h
    exact keepsCanonical_of_array (tick_array s) canonical
  · next c rest _ =>
    obtain ⟨u, next, keeps⟩ := exec_keepsCanonical c (s.setPending rest)
    obtain rfl : t = u := Host.Outcome.next.inj (h.symm.trans next)
    exact keeps canonical

end Sys2Proof.Proofs
end

section
/-! The queue of commands and the clock (notes/assumptions/1.md): every command leaves the one alone and never turns the other
back; a step takes its command from the front of the queue. -/

namespace Sys2Proof.Proofs

open Sys2Proof Sys2Proof.Machine

/-- From `s` to `t` the queue of commands stays, and time has not run back. -/
structure KeepsOrder (s t : State) : Prop where
  pending : t.pending = s.pending
  now : s.now ≤ t.now

namespace KeepsOrder

variable {s t u : State}

theorem refl (s : State) : KeepsOrder s s := ⟨rfl, le_rfl⟩

theorem trans (h : KeepsOrder s t) (k : KeepsOrder t u) : KeepsOrder s u := ⟨k.pending.trans h.pending, h.now.trans k.now⟩

theorem of_eq (pending : t.pending = s.pending) (now : t.now = s.now) : KeepsOrder s t := ⟨pending, now.ge⟩

/-- What works inside the blocks leaves queue and clock alone. -/
theorem of_internal (h : Internal s t) : KeepsOrder s t :=
  .of_eq (congrArg Fixed.pending h.fixed) (congrArg Fixed.now h.fixed)

theorem of_writesCell (h : WritesCell s t) : KeepsOrder s t := by
  obtain rfl | ⟨g, payload, internal⟩ := h
  · exact .refl t
  · have written : KeepsOrder s (s.writeCell g payload) := .of_eq rfl rfl
    exact written.trans (.of_internal internal)

/-- A timed event: the clock moves on to its instant, never back. -/
theorem moved (s : State) (due : Nat) : KeepsOrder s (s.at due) := ⟨rfl, le_max_left _ _⟩

theorem answer {a : Answer} (h : KeepsOrder s t) : KeepsOrder s (t.answer a) := h.trans (.of_eq rfl rfl)

theorem settle (h : KeepsOrder s t) : KeepsOrder s t.settle := h.trans (.of_internal (Internal.refl t).settle)

theorem settleSend (h : KeepsOrder s t) : KeepsOrder s t.settleSend := h.trans (.of_internal (Internal.refl t).settleSend)

theorem ite {c : Prop} [Decidable c] (h : KeepsOrder s t) (k : KeepsOrder s u) : KeepsOrder s (if c then t else u) := by
  split
  · exact h
  · exact k

/-- A command transaction in phase IDLE or not (R169). -/
theorem transaction {n : Nat} {f : State → State} (h : ∀ u : State, KeepsOrder u (f u)) : KeepsOrder s (s.transaction n f) := by
  have out : KeepsOrder s (s.shiftOut [] n) := .of_eq rfl rfl
  exact .ite (out.trans (h _)) out

end KeepsOrder

/-- A command whose working is internal, once the clock has moved on. -/
theorem keepsOrder_of_works {o : Host.Outcome State Fault Refusal} {s : State} (w : Works o s) : Reaches KeepsOrder o s := by
  obtain ⟨due, t, next, internal⟩ := w
  exact ⟨t, next, (KeepsOrder.moved s due).trans (.of_internal internal)⟩

section
variable (s : State)

/-! ## The local port's commands -/

/-- A command transaction out of or in reset. -/
theorem Reaches.order {n : Nat} {f : State → State} (h : ∀ u : State, KeepsOrder u (f u)) :
    Reaches KeepsOrder (s.act fun s => s.transaction n f) s := .act (.refl s) (.transaction h)

theorem answer_order (a : Answer) : KeepsOrder s (s.answer a) := (KeepsOrder.refl s).answer

theorem enterListening_order : KeepsOrder s s.enterListening := .of_internal (Internal.refl s).enterListening

theorem start_order (a b c d : Byte) (e : BitVec 16) (f : Byte) : Reaches KeepsOrder (execStart a b c d e f s) s := by
  refine .order s fun s => ?_
  unfold State.takeStart
  refine .ite (answer_order s _) ?_
  split
  · exact answer_order s _
  · next v _ =>
    have params : KeepsOrder s (s.setParams (some v)) := .of_eq rfl rfl
    exact .ite (answer_order s _) (params.trans (enterListening_order _)).answer.settle

theorem join_order : Reaches KeepsOrder (execJoin s) s :=
  .order s fun s => .ite (enterListening_order s).answer.settle (answer_order s _)

theorem submit_order (payload : List Byte) : Reaches KeepsOrder (execSubmit payload s) s := by
  refine .order s fun s => .ite (answer_order s _) (.ite (answer_order s _) (.ite (answer_order s _) ?_))
  exact KeepsOrder.settleSend (.of_eq rfl rfl)

theorem read_order (g : BitVec 48) : Reaches KeepsOrder (execRead g s) s :=
  .order s fun s => .ite (answer_order s _) (.ite (answer_order s _) (.of_eq rfl rfl))

theorem notice_order : Reaches KeepsOrder (execNotice s) s := by
  refine .order s fun s => ?_
  unfold State.takeNotice
  split
  · exact .of_eq rfl rfl
  · exact .of_eq rfl rfl

theorem takeLeave_order : KeepsOrder s s.takeLeave := by
  have leaves : ∀ r, KeepsOrder s (s.enterLeaving r) := fun _ => .of_internal (Internal.refl s).enterLeaving
  have detaches : KeepsOrder s s.detach := .of_internal (Internal.refl s).detach
  exact .ite (leaves _).answer (.ite detaches.answer (answer_order s _))

theorem takeHold_order : KeepsOrder s s.takeHold := by
  have leaves : KeepsOrder s (s.enterLeaving .hold) := .of_internal (Internal.refl s).enterLeaving
  exact .ite leaves.answer (answer_order s _)

theorem departure_order (c : SlotCommand) {take : State → State} (h : KeepsOrder s (take s)) :
    KeepsOrder s (s.departure c take) := .ite (.of_eq rfl rfl) h.settle

theorem release_order : Reaches KeepsOrder (execRelease s) s := by
  refine .order s fun s => .ite ?_ (answer_order s _)
  have exits : KeepsOrder s (s.enter .resuming).requestExitPass :=
    .of_internal (requestExitPass_internal (Internal.refl s).enterState)
  exact exits.answer.settle

theorem collect_order (n : Nat) : Reaches KeepsOrder (execCollect n s) s := by
  refine .act (.refl s) ?_
  unfold State.collect
  split
  · exact .ite (.of_eq rfl rfl) (.of_eq rfl rfl)
  · exact .of_eq rfl rfl

theorem deferredCommandTaken_order : Reaches KeepsOrder (execDeferredCommandTaken s) s := by
  refine .act (.refl s) (.ite (.refl s) ?_)
  split
  · exact (takeLeave_order s).settle
  · exact (takeHold_order s).settle
  · exact .refl s
  · exact .refl s

/-! ## Reads, temperature, reset -/

theorem localReadGrant_order : Reaches KeepsOrder (execLocalReadGrant s) s := by
  refine .act (.refl s) ?_
  dsimp only
  split
  · exact .ite (KeepsOrder.settle (.ite (.of_eq rfl rfl) (.of_eq rfl rfl))) (.refl s)
  · exact .refl s

theorem localReadComplete_order : Reaches KeepsOrder (execLocalReadComplete s) s := by
  refine .act (.refl s) ?_
  split
  · exact KeepsOrder.settle (.of_eq rfl rfl)
  · exact .refl s

theorem temperatureEvaluation_order (celsius : Int) : Reaches KeepsOrder (execTemperatureEvaluation celsius s) s := by
  refine .act (.refl s) ?_
  split
  · next due _ =>
    have evaluates : KeepsOrder (s.at due) ((s.at due).evaluate due celsius) := .ite (.of_eq rfl rfl) (.of_eq rfl rfl)
    exact (KeepsOrder.moved s due).trans evaluates
  · exact .refl s

theorem resetRelease_order (station : StationPins) (rate : RatePins) (slice : SlicePins) :
    Reaches KeepsOrder (execResetRelease station rate slice s) s := ⟨_, rfl, .ite (.of_eq rfl rfl) (.refl s)⟩

theorem hardwareReset_order : KeepsOrder s s.hardwareReset := .of_eq rfl rfl

end

/-! ## Every command -/

theorem exec_keepsOrder (c : Instr) (s : State) : Reaches KeepsOrder (exec c s) s := by
  cases c with
  | hardwareReset => exact ⟨_, rfl, hardwareReset_order s⟩
  | resetRelease a b c => exact resetRelease_order s a b c
  | start a b c d e f => exact start_order s a b c d e f
  | join => exact join_order s
  | submit p => exact submit_order s p
  | read g => exact read_order s g
  | status => exact .order s fun s => answer_order s _
  | peers => exact .order s fun s => answer_order s _
  | notice => exact notice_order s
  | leave => exact .order s fun s => departure_order s _ (takeLeave_order s)
  | hold => exact .order s fun s => departure_order s _ (takeHold_order s)
  | release => exact release_order s
  | malformedCommand o p => exact .order s fun s => answer_order s _
  | collect n => exact collect_order s n
  | deferredCommandTaken => exact deferredCommandTaken_order s
  | commitWriteComplete => exact (commitWriteComplete_writesCell s).imp fun _ => .of_writesCell
  | earlyWriteComplete => exact (earlyWriteComplete_writesCell s).imp fun _ => .of_writesCell
  | localReadGrant => exact localReadGrant_order s
  | localReadComplete => exact localReadComplete_order s
  | temperatureEvaluation z => exact temperatureEvaluation_order s z
  | syncWaitEnd => exact keepsOrder_of_works syncWaitEnd_works
  | frameStart => exact keepsOrder_of_works frameStart_works
  | ownFrameStart => exact keepsOrder_of_works ownFrameStart_works
  | arbitrationLost => exact keepsOrder_of_works arbitrationLost_works
  | readbackFailure => exact keepsOrder_of_works readbackFailure_works
  | duplicateStation => exact keepsOrder_of_works duplicateStation_works
  | frameEnd b l => exact keepsOrder_of_works (frameEnd_works b l)
  | frameTruncated b l => exact keepsOrder_of_works (frameTruncated_works b l)
  | windowOpen => exact keepsOrder_of_works windowOpen_works
  | objectionPullEnd => exact keepsOrder_of_works objectionPullEnd_works
  | windowEnd n => exact keepsOrder_of_works (windowEnd_works n)
  | separationEnd => exact keepsOrder_of_works separationEnd_works
  | dataLineFault => exact keepsOrder_of_works dataLineFault_works
  | faultWaitEnd => exact keepsOrder_of_works faultWaitEnd_works
  | objectionLineFault => exact keepsOrder_of_works objectionLineFault_works
  | objectionLineRecovery => exact keepsOrder_of_works objectionLineRecovery_works
  | listenTimerExpiry => exact keepsOrder_of_works listenTimerExpiry_works
  | joinWaitExpiry => exact keepsOrder_of_works joinWaitExpiry_works
  | leaveTimerExpiry => exact keepsOrder_of_works leaveTimerExpiry_works
  | heartbeatTick => exact keepsOrder_of_works heartbeatTick_works
  | peerSilent k => exact keepsOrder_of_works (peerSilent_works k)
  | presenceTimerExpiry => exact keepsOrder_of_works presenceTimerExpiry_works
  | quietMarkExpiry k => exact keepsOrder_of_works (quietMarkExpiry_works k)
  | staleWaitEnd => exact keepsOrder_of_works staleWaitEnd_works
  | backoffEnd => exact keepsOrder_of_works backoffEnd_works
  | catchUpDeadline => exact keepsOrder_of_works catchUpDeadline_works
  | responderBackoffEnd => exact keepsOrder_of_works responderBackoffEnd_works
  | drainComplete => exact keepsOrder_of_works drainComplete_works
  | commitWriteGrant => exact keepsOrder_of_works commitWriteGrant_works
  | replayReadGrant => exact keepsOrder_of_works replayReadGrant_works
  | replayReadComplete => exact keepsOrder_of_works replayReadComplete_works
  | sweepSliceGrant => exact keepsOrder_of_works sweepSliceGrant_works
  | sweepSliceComplete => exact keepsOrder_of_works sweepSliceComplete_works
  | intervalTimerExpiry => exact keepsOrder_of_works intervalTimerExpiry_works
  | pullIn => exact keepsOrder_of_works pullIn_works
  | portQuietPullIn => exact keepsOrder_of_works portQuietPullIn_works
  | holdTimerExpiry => exact keepsOrder_of_works holdTimerExpiry_works
  | internalPassGrant => exact keepsOrder_of_works internalPassGrant_works
  | internalPassComplete => exact keepsOrder_of_works internalPassComplete_works
  | exitPassGrant => exact keepsOrder_of_works exitPassGrant_works
  | exitPassComplete => exact keepsOrder_of_works exitPassComplete_works

/-- Settles O3, by `exec_keepsOrder`: a command moves the clock on, if at all, and its block's working leaves clock and queue
alone. -/
theorem everyCommandKeepsQueueAndTime : Obligations.EveryCommandKeepsQueueAndTime := by
  intro c s
  obtain ⟨t, next, keeps⟩ := exec_keepsOrder c s
  exact ⟨t, next, keeps.pending, keeps.now⟩

/-! ## One step -/

theorem step_empty {s : State} (empty : s.pending = []) : step s = .next s.tick := by
  unfold step
  rw [empty]

/-- Settles O1: a queue that is not empty is the second branch of `step`. -/
theorem stepRunsFrontCommand : Obligations.StepRunsFrontCommand := fun _ _ _ => rfl

/-- Settles O2, by `step_empty`. -/
theorem emptyQueueLetsTimePass : Obligations.EmptyQueueLetsTimePass := fun _ empty => step_empty empty

end Sys2Proof.Proofs
end
